-- ==== Sys2Proof/Word.lean ====
section
/-! DEFINITION. The widths of the values of the core (spec/00_scope.md R10, R12; spec/10_state.md R20).
Every value is an unsigned bit vector of a stated width, bit 0 the least significant. -/

namespace Sys2Proof

/-- A 64-bit block: the operand of `ENC` and `DEC`, the content of `DOUT` (R51). -/
abbrev Block := BitVec 64

/-- The 64-bit key operand of `LDKEY` (R52). -/
abbrev Key := BitVec 64

/-- One 32-bit half `L` or `R` of the block in flight (R21). -/
abbrev Half := BitVec 32

/-- One 28-bit half `C` or `D` of the key state (R22). -/
abbrev KeyHalf := BitVec 28

/-- The 56-bit concatenation `C ‖ D` (R95, R96). -/
abbrev KeyState := BitVec 56

/-- One 48-bit round key `RK[i]` (R25). -/
abbrev RoundKey := BitVec 48

/-- The sixteen round keys; `RK[n]` of the spec, `n` in 1..16, is entry `n - 1` (R25). -/
abbrev Schedule := Vector RoundKey 16

/-- The 67-bit command word `cmd[66:0]` (R70). -/
abbrev CmdWord := BitVec 67

end Sys2Proof
end

