-- ==== Sys2Proof/Config.lean ====
section
/-! DEFINITION. The parameters of the core (spec/00_scope.md R10, R11). None is configurable, and the spec leaves no
result of a command open, so there is no free value here. The constant tables are in Machine/Tables.lean. -/

namespace Sys2Proof.Config

/-- `ROUNDS` (R10). -/
def rounds : Nat := 16

/-- `CMD_BITS`, the width of a command word (R10, R70). -/
def cmdBits : Nat := 67

/-- `T_LDKEY`: busy cycles of `LDKEY` after its accepting edge in the reference sequencer (R11, R230). -/
def tLdkey : Nat := 16

/-- `T_CRYPT`: busy cycles of `ENC` and `DEC` after the accepting edge in the reference sequencer (R11, R230). -/
def tCrypt : Nat := 16

end Sys2Proof.Config
end

