-- ==== Sys2Proof/Syntax.lean ====
section
/-! DEFINITION. The command set: one constructor per row of spec/opcode_table.json (spec/30_encoding.md R71, R76).
The ignored operand bits of `NOP`, `CLR` and the reserved opcodes are no part of a command (R73, R76). -/

namespace Sys2Proof

/-- A decoded command (R76). -/
inductive Instr where
  /-- `NOP`, op 0b000 (44_commands.md R171). -/
  | nop
  /-- `LDKEY k`, op 0b001 (R174). -/
  | ldkey (key : Key)
  /-- `ENC b`, op 0b010 (R178). -/
  | enc (block : Block)
  /-- `DEC b`, op 0b011 (R179). -/
  | dec (block : Block)
  /-- `CLR`, op 0b100 (R180). -/
  | clr
  /-- Reserved opcode 0b101 (R181). -/
  | rsvd5
  /-- Reserved opcode 0b110 (R181). -/
  | rsvd6
  /-- Reserved opcode 0b111 (R181). -/
  | rsvd7
  deriving DecidableEq, Repr

/-- The mnemonic of a command's row in the opcode table (R71). -/
def Instr.mnemonic : Instr → String
  | .nop => "NOP"
  | .ldkey _ => "LDKEY"
  | .enc _ => "ENC"
  | .dec _ => "DEC"
  | .clr => "CLR"
  | .rsvd5 => "RSVD5"
  | .rsvd6 => "RSVD6"
  | .rsvd7 => "RSVD7"

end Sys2Proof
end

