-- ==== Sys2Proof/WellFormed.lean ====
section
/-! DEFINITION. What is checked before the machine runs: the width of a raw command word (spec/30_encoding.md R70) and
the build-time checks of the constant tables (spec/40_bit_permutation_stages.md R99, spec/41_sbox_substitution.md R120,
spec/43_key_schedule.md R151). A decoded command needs no check of its own (R75). -/

namespace Sys2Proof

/-- Every decoded command is well formed: "there is no illegal operand value: every 64-bit imm64 is legal for every
defined opcode", and the reserved opcodes are commands with a defined effect (R75). -/
def Instr.wf : Instr → Bool
  | .nop => true
  | .ldkey _ => true
  | .enc _ => true
  | .dec _ => true
  | .clr => true
  | .rsvd5 => true
  | .rsvd6 => true
  | .rsvd7 => true

/-- A raw number is a command word when it has at most 67 bits (R70). -/
def wordFits (w : Nat) : Bool := decide (w < 2 ^ Config.cmdBits)

/-- The table check of R99: the stated length, every entry within `1..nIn`. -/
def tableWf (nIn m : Nat) (t : List Nat) : Bool :=
  decide (t.length = m) && t.all (fun e => decide (1 ≤ e) && decide (e ≤ nIn))

/-- A table without repeated entries (R94, R95, R96, R99). -/
def tableDistinct (t : List Nat) : Bool := decide t.Nodup

/-- Two tables invert each other, entry by entry: `b[a[j]] = j` for `j` in 1..m (R92). -/
def tableInverts (m : Nat) (a b : List Nat) : Bool :=
  (List.range m).all (fun j => (a[j]?.bind (fun e => b[e - 1]?)) == some (j + 1))

/-- The S-box check of R120: every row is a permutation of 0..15. -/
def sboxWf (s : Vector (Vector (BitVec 4) 16) 4) : Bool :=
  s.toList.all (fun row => decide row.toList.Nodup)

/-- The rotation list check of R151 and R152: sixteen entries, each 1 or 2, with sum 28. -/
def shiftWf (t : List Nat) : Bool :=
  decide (t.length = 16) && t.all (fun e => e == 1 || e == 2) && decide (t.sum = 28)

end Sys2Proof
end

