-- ==== Sys2Proof/Decode.lean ====
section
/-! DEFINITION. The decoder and the encoder of command words (spec/30_encoding.md R70 to R76). A command is one 67-bit
word; the decoder reads `op` = bits 66:64 and nothing else to select the command. -/

namespace Sys2Proof

/-- Why a raw number is no command word. -/
inductive DecodeError where
  /-- The number has a bit above bit 66: the command port has 67 wires (R70). -/
  | tooWide
  deriving DecidableEq, Repr

/-- The field `op`, bits 66:64 (R70). -/
def opField (w : CmdWord) : BitVec 3 := w.extractLsb' 64 3

/-- The field `imm64`, bits 63:0, used exactly as presented (R70, R72). -/
def immField (w : CmdWord) : BitVec 64 := w.extractLsb' 0 64

/-- The opcode map of R71, on the three bits of `op` from bit 66 down to bit 64: total, one command for each opcode. -/
def decodeOp (b66 b65 b64 : Bool) (imm : BitVec 64) : Instr :=
  match b66, b65, b64 with
  | false, false, false => .nop
  | false, false, true => .ldkey imm
  | false, true, false => .enc imm
  | false, true, true => .dec imm
  | true, false, false => .clr
  | true, false, true => .rsvd5
  | true, true, false => .rsvd6
  | true, true, true => .rsvd7

/-- The decoder, total on all `2 ^ 67` words (R76). -/
def decodeWord (w : CmdWord) : Instr :=
  decodeOp ((opField w).getLsbD 2) ((opField w).getLsbD 1) ((opField w).getLsbD 0) (immField w)

/-- The decoder on a raw number: a number wider than the port is rejected by name. -/
def decodeRaw (w : Nat) : Except DecodeError Instr :=
  if wordFits w then .ok (decodeWord (BitVec.ofNat 67 w)) else .error .tooWide

/-- The command that the decoder reads from an opcode-table word of `nbits` bits, bits above `nbits` being 0. -/
def decodeTableWord (nbits w : Nat) : Option Instr :=
  match decodeRaw (w % 2 ^ nbits) with
  | .ok i => some i
  | .error _ => none

/-- The opcode of a command (R71). -/
def Instr.opcode : Instr → BitVec 3
  | .nop => 0b000
  | .ldkey _ => 0b001
  | .enc _ => 0b010
  | .dec _ => 0b011
  | .clr => 0b100
  | .rsvd5 => 0b101
  | .rsvd6 => 0b110
  | .rsvd7 => 0b111

/-- The operand field of a command; an assembler emits zeros where it is ignored (R73). -/
def Instr.operand : Instr → BitVec 64
  | .nop => 0
  | .ldkey k => k
  | .enc b => b
  | .dec b => b
  | .clr => 0
  | .rsvd5 => 0
  | .rsvd6 => 0
  | .rsvd7 => 0

/-- The encoder: `op ‖ imm64` (R70, R71). -/
def encode (i : Instr) : CmdWord := i.opcode ++ i.operand

/-- One row of the opcode map of R71: a word `w` selects it when `w & mask = match`. -/
structure OpcodeRow where
  mnemonic : String
  mask : CmdWord
  value : CmdWord
  deriving DecidableEq, Repr

/-- The rule of R71 for selecting a row. -/
def OpcodeRow.selects (row : OpcodeRow) (w : CmdWord) : Bool := w &&& row.mask == row.value

/-- The opcode map as R71 prints it. -/
def opcodeRows : List OpcodeRow :=
  [⟨"NOP", 0x70000000000000000, 0x00000000000000000⟩,
   ⟨"LDKEY", 0x70000000000000000, 0x10000000000000000⟩,
   ⟨"ENC", 0x70000000000000000, 0x20000000000000000⟩,
   ⟨"DEC", 0x70000000000000000, 0x30000000000000000⟩,
   ⟨"CLR", 0x70000000000000000, 0x40000000000000000⟩,
   ⟨"RSVD5", 0x70000000000000000, 0x50000000000000000⟩,
   ⟨"RSVD6", 0x70000000000000000, 0x60000000000000000⟩,
   ⟨"RSVD7", 0x70000000000000000, 0x70000000000000000⟩]

end Sys2Proof
end

