-- ==== Sys2Proof/Machine/State.lean ====
section
/-! DEFINITION. The architectural state (spec/10_state.md R20 to R36) as plain data, its reset value
(spec/70_reset_and_hazards.md R220), and the reasons a step can stop. -/

namespace Sys2Proof.Machine

/-- `PHASE` (R30): three-valued, since "0b11 is never produced by any rule; a model may make PHASE a three-valued type". -/
inductive Phase where
  /-- No operation in progress. -/
  | idle
  /-- An `LDKEY` is generating round keys. -/
  | keygen
  /-- An `ENC` or `DEC` is running rounds. -/
  | crypt
  deriving DecidableEq, Repr

/-- `ECODE` (R36, R201): the code 3 is never produced. -/
inductive ECode where
  /-- 0: no fault recorded. -/
  | none
  /-- 1: `ENC` or `DEC` accepted while `KEY_VALID = 0`. -/
  | noKey
  /-- 2: a reserved opcode accepted. -/
  | rsvdOp
  deriving DecidableEq, Repr

/-- The values on the input ports `rst`, `cmd_valid` and `cmd` at one rising edge of `clk` (R39). -/
structure PortIn where
  rst : Bool
  cmdValid : Bool
  cmd : CmdWord
  deriving DecidableEq, Repr

/-- The state tuple of R20, and `pending`: the model's own field, what the host will drive on the input ports at the
coming edges, first edge first (notes/assumptions/1.md). -/
structure State where
  /-- `L`, left half of the block in flight (R21). -/
  l : Half
  /-- `R`, right half of the block in flight (R21). -/
  r : Half
  /-- `C`, left half of the rotating key state (R22). -/
  c : KeyHalf
  /-- `D`, right half of the rotating key state (R22). -/
  d : KeyHalf
  /-- `RK[1]` to `RK[16]` (R25); `RK[n]` is entry `n - 1`. -/
  rk : Schedule
  /-- `DOUT`, the last completed output block (R23). -/
  dout : Block
  /-- `RND`, 0 when idle, 1 to 16 when busy (R31); its values 17 to 31 "never occur" (U8; notes/assumptions/4.md). -/
  rnd : Fin 17
  /-- `PHASE` (R30). -/
  phase : Phase
  /-- `DECR`, the direction of the current or last `ENC`/`DEC` (R35). -/
  decr : Bool
  /-- `KEY_VALID` (R33). -/
  keyValid : Bool
  /-- `DONE` (R34). -/
  isDone : Bool
  /-- `ERR` (R36). -/
  err : Bool
  /-- `ECODE` (R36). -/
  ecode : ECode
  /-- The inputs of the coming edges. The spec gives no value: the host chooses them (notes/assumptions/1.md). -/
  pending : List PortIn
  deriving DecidableEq, Repr

/-- Why a step stops. The protocol faults of the spec (`NO_KEY`, `RSVD_OP`) are NOT among these: they are latched in
`ERR` and `ECODE` and the machine has a next state (R203). -/
inductive Fault where
  /-- `stuck`: an edge meets `PHASE = KEYGEN` or `PHASE = CRYPT` with `RND = 0`. Raised by the key-generation step and
  the round step. Safe: no rule produces such a state (R31, R43), and the spec gives it no effect (U8). -/
  | sequencerStuck
  deriving DecidableEq, Repr

/-- Why a command has no meaning. -/
inductive Refusal where
  /-- Only an arm of `exec` for a command without a meaning would answer this; there is none. Safe: the machine stops. -/
  | notModelled (mnemonic : String)
  deriving DecidableEq, Repr

/-- The state right after reset: every element zero, `PHASE = IDLE` (R20, R220). No input is listed. -/
def State.reset : State where
  l := 0
  r := 0
  c := 0
  d := 0
  rk := Vector.replicate 16 0
  dout := 0
  rnd := 0
  phase := .idle
  decr := false
  keyValid := false
  isDone := false
  err := false
  ecode := .none
  pending := []

end Sys2Proof.Machine
end

