-- ==== Sys2Proof/Machine/Flags.lean ====
section
/-! DEFINITION. The status register and the output ports: functions of the state (spec/10_state.md R30 to R39). No flag
depends on the value of a key or a block (R37). -/

namespace Sys2Proof.Machine

/-- `PHASE` as its 2-bit code (R30). -/
def phaseBits : Phase → BitVec 2
  | .idle => 0b00
  | .keygen => 0b01
  | .crypt => 0b10

/-- `ECODE` as its 2-bit code (R36, R201). -/
def ecodeBits : ECode → BitVec 2
  | .none => 0
  | .noKey => 1
  | .rsvdOp => 2

/-- `RND` as the 5-bit register (R31). -/
def rndBits (s : State) : BitVec 5 := BitVec.ofNat 5 s.rnd.val

/-- `BUSY = (PHASE != IDLE)` (R32). -/
def isBusy (s : State) : Bool := s.phase != .idle

/-- `cmd_ready = (PHASE = IDLE) and (ERR = 0)` (R39). -/
def cmdReady (s : State) : Bool := s.phase == .idle && !s.err

/-- `status[7:0]`: bit 7 reads 0, then `DECR`, `ECODE`, `ERR`, `DONE`, `KEY_VALID`, and `BUSY` in bit 0 (R38). -/
def statusOf (s : State) : BitVec 8 :=
  0#1 ++ BitVec.ofBool s.decr ++ ecodeBits s.ecode ++ BitVec.ofBool s.err ++ BitVec.ofBool s.isDone ++
    BitVec.ofBool s.keyValid ++ BitVec.ofBool (isBusy s)

/-- The output ports (R39). -/
structure PortOut where
  cmdReady : Bool
  busy : Bool
  keyValid : Bool
  outValid : Bool
  dout : Block
  err : Bool
  ecode : BitVec 2
  status : BitVec 8
  deriving DecidableEq, Repr

/-- What the output ports show in a state; reading them has no side effect (R39, R58). -/
def outputs (s : State) : PortOut where
  cmdReady := cmdReady s
  busy := isBusy s
  keyValid := s.keyValid
  outValid := s.isDone
  dout := s.dout
  err := s.err
  ecode := ecodeBits s.ecode
  status := statusOf s

end Sys2Proof.Machine
end

