-- ==== Sys2Proof/Machine/Tables.lean ====
section
/-! DEFINITION. The constant tables of the core, as the spec prints them (spec/40_bit_permutation_stages.md R91 to R97,
spec/41_sbox_substitution.md R111 to R118 and R122, spec/43_key_schedule.md R151). No command, port or fault writes them
(spec/20_memory.md R55): they are parameters of the step, not state. A table is read left to right, top to bottom, and
its entries are numbered from 1. -/

namespace Sys2Proof.Machine

/-- `IP_TABLE` (R91). -/
def ipTable : List Nat :=
  [58, 50, 42, 34, 26, 18, 10, 2,
   60, 52, 44, 36, 28, 20, 12, 4,
   62, 54, 46, 38, 30, 22, 14, 6,
   64, 56, 48, 40, 32, 24, 16, 8,
   57, 49, 41, 33, 25, 17, 9, 1,
   59, 51, 43, 35, 27, 19, 11, 3,
   61, 53, 45, 37, 29, 21, 13, 5,
   63, 55, 47, 39, 31, 23, 15, 7]

/-- `FP_TABLE`, of the inverse IP^-1 (R92). -/
def fpTable : List Nat :=
  [40, 8, 48, 16, 56, 24, 64, 32,
   39, 7, 47, 15, 55, 23, 63, 31,
   38, 6, 46, 14, 54, 22, 62, 30,
   37, 5, 45, 13, 53, 21, 61, 29,
   36, 4, 44, 12, 52, 20, 60, 28,
   35, 3, 43, 11, 51, 19, 59, 27,
   34, 2, 42, 10, 50, 18, 58, 26,
   33, 1, 41, 9, 49, 17, 57, 25]

/-- `E_TABLE`, eight groups of six (R93). -/
def eTable : List Nat :=
  [32, 1, 2, 3, 4, 5,
   4, 5, 6, 7, 8, 9,
   8, 9, 10, 11, 12, 13,
   12, 13, 14, 15, 16, 17,
   16, 17, 18, 19, 20, 21,
   20, 21, 22, 23, 24, 25,
   24, 25, 26, 27, 28, 29,
   28, 29, 30, 31, 32, 1]

/-- `P_TABLE` (R94). -/
def pTable : List Nat :=
  [16, 7, 20, 21, 29, 12, 28, 17,
   1, 15, 23, 26, 5, 18, 31, 10,
   2, 8, 24, 14, 32, 27, 3, 9,
   19, 13, 30, 6, 22, 11, 4, 25]

/-- `PC1_TABLE`: the C half, then the D half (R95). -/
def pc1Table : List Nat :=
  [57, 49, 41, 33, 25, 17, 9,
   1, 58, 50, 42, 34, 26, 18,
   10, 2, 59, 51, 43, 35, 27,
   19, 11, 3, 60, 52, 44, 36,
   63, 55, 47, 39, 31, 23, 15,
   7, 62, 54, 46, 38, 30, 22,
   14, 6, 61, 53, 45, 37, 29,
   21, 13, 5, 28, 20, 12, 4]

/-- `PC2_TABLE`: 24 entries from C, then 24 from D (R96). -/
def pc2Table : List Nat :=
  [14, 17, 11, 24, 1, 5,
   3, 28, 15, 6, 21, 10,
   23, 19, 12, 4, 26, 8,
   16, 7, 27, 20, 13, 2,
   41, 52, 31, 37, 47, 55,
   30, 40, 51, 45, 33, 48,
   44, 49, 39, 56, 34, 53,
   46, 42, 50, 36, 29, 32]

/-- Destinations of the input bits of `IP` (R97). -/
def ipDest : List Nat :=
  [40, 8, 48, 16, 56, 24, 64, 32, 39, 7, 47, 15, 55, 23, 63, 31,
   38, 6, 46, 14, 54, 22, 62, 30, 37, 5, 45, 13, 53, 21, 61, 29,
   36, 4, 44, 12, 52, 20, 60, 28, 35, 3, 43, 11, 51, 19, 59, 27,
   34, 2, 42, 10, 50, 18, 58, 26, 33, 1, 41, 9, 49, 17, 57, 25]

/-- Destinations of the input bits of `P` (R97). -/
def pDest : List Nat :=
  [9, 17, 23, 31, 13, 28, 2, 18, 24, 16, 30, 6, 26, 20, 10, 1,
   8, 14, 25, 3, 4, 29, 11, 19, 32, 12, 22, 7, 5, 27, 15, 21]

/-- Destinations of the input bits of `PC1`; 0 stands for the `-` of a dropped bit (R97). -/
def pc1Dest : List Nat :=
  [8, 16, 24, 56, 52, 44, 36, 0, 7, 15, 23, 55, 51, 43, 35, 0,
   6, 14, 22, 54, 50, 42, 34, 0, 5, 13, 21, 53, 49, 41, 33, 0,
   4, 12, 20, 28, 48, 40, 32, 0, 3, 11, 19, 27, 47, 39, 31, 0,
   2, 10, 18, 26, 46, 38, 30, 0, 1, 9, 17, 25, 45, 37, 29, 0]

/-- Destinations of the input bits of `PC2`; 0 stands for the `-` of a dropped bit (R97). -/
def pc2Dest : List Nat :=
  [5, 24, 7, 16, 6, 10, 20, 18, 0, 12, 3, 15, 23, 1, 9, 19,
   2, 0, 14, 22, 11, 0, 13, 4, 0, 17, 21, 8, 47, 31, 27, 48,
   35, 41, 0, 46, 28, 0, 39, 32, 25, 44, 0, 37, 34, 43, 29, 36,
   38, 45, 33, 26, 42, 0, 30, 40]

/-- Destinations of the input bits of `E`: one or two output bits each (R97). -/
def eDest : List (List Nat) :=
  [[2, 48], [3], [4], [5, 7], [6, 8], [9], [10], [11, 13],
   [12, 14], [15], [16], [17, 19], [18, 20], [21], [22], [23, 25],
   [24, 26], [27], [28], [29, 31], [30, 32], [33], [34], [35, 37],
   [36, 38], [39], [40], [41, 43], [42, 44], [45], [46], [1, 47]]

/-- A 4 x 16 S-box matrix: `matrix[row][col]` is a 4-bit value (R110). -/
abbrev SboxMatrix := Vector (Vector (BitVec 4) 16) 4

/-- `S1_MATRIX` (R111). -/
def s1Matrix : SboxMatrix :=
  #v[#v[14, 4, 13, 1, 2, 15, 11, 8, 3, 10, 6, 12, 5, 9, 0, 7],
     #v[0, 15, 7, 4, 14, 2, 13, 1, 10, 6, 12, 11, 9, 5, 3, 8],
     #v[4, 1, 14, 8, 13, 6, 2, 11, 15, 12, 9, 7, 3, 10, 5, 0],
     #v[15, 12, 8, 2, 4, 9, 1, 7, 5, 11, 3, 14, 10, 0, 6, 13]]

/-- `S2_MATRIX` (R112). -/
def s2Matrix : SboxMatrix :=
  #v[#v[15, 1, 8, 14, 6, 11, 3, 4, 9, 7, 2, 13, 12, 0, 5, 10],
     #v[3, 13, 4, 7, 15, 2, 8, 14, 12, 0, 1, 10, 6, 9, 11, 5],
     #v[0, 14, 7, 11, 10, 4, 13, 1, 5, 8, 12, 6, 9, 3, 2, 15],
     #v[13, 8, 10, 1, 3, 15, 4, 2, 11, 6, 7, 12, 0, 5, 14, 9]]

/-- `S3_MATRIX` (R113). -/
def s3Matrix : SboxMatrix :=
  #v[#v[10, 0, 9, 14, 6, 3, 15, 5, 1, 13, 12, 7, 11, 4, 2, 8],
     #v[13, 7, 0, 9, 3, 4, 6, 10, 2, 8, 5, 14, 12, 11, 15, 1],
     #v[13, 6, 4, 9, 8, 15, 3, 0, 11, 1, 2, 12, 5, 10, 14, 7],
     #v[1, 10, 13, 0, 6, 9, 8, 7, 4, 15, 14, 3, 11, 5, 2, 12]]

/-- `S4_MATRIX` (R114). -/
def s4Matrix : SboxMatrix :=
  #v[#v[7, 13, 14, 3, 0, 6, 9, 10, 1, 2, 8, 5, 11, 12, 4, 15],
     #v[13, 8, 11, 5, 6, 15, 0, 3, 4, 7, 2, 12, 1, 10, 14, 9],
     #v[10, 6, 9, 0, 12, 11, 7, 13, 15, 1, 3, 14, 5, 2, 8, 4],
     #v[3, 15, 0, 6, 10, 1, 13, 8, 9, 4, 5, 11, 12, 7, 2, 14]]

/-- `S5_MATRIX` (R115). -/
def s5Matrix : SboxMatrix :=
  #v[#v[2, 12, 4, 1, 7, 10, 11, 6, 8, 5, 3, 15, 13, 0, 14, 9],
     #v[14, 11, 2, 12, 4, 7, 13, 1, 5, 0, 15, 10, 3, 9, 8, 6],
     #v[4, 2, 1, 11, 10, 13, 7, 8, 15, 9, 12, 5, 6, 3, 0, 14],
     #v[11, 8, 12, 7, 1, 14, 2, 13, 6, 15, 0, 9, 10, 4, 5, 3]]

/-- `S6_MATRIX` (R116). -/
def s6Matrix : SboxMatrix :=
  #v[#v[12, 1, 10, 15, 9, 2, 6, 8, 0, 13, 3, 4, 14, 7, 5, 11],
     #v[10, 15, 4, 2, 7, 12, 9, 5, 6, 1, 13, 14, 0, 11, 3, 8],
     #v[9, 14, 15, 5, 2, 8, 12, 3, 7, 0, 4, 10, 1, 13, 11, 6],
     #v[4, 3, 2, 12, 9, 5, 15, 10, 11, 14, 1, 7, 6, 0, 8, 13]]

/-- `S7_MATRIX` (R117). -/
def s7Matrix : SboxMatrix :=
  #v[#v[4, 11, 2, 14, 15, 0, 8, 13, 3, 12, 9, 7, 5, 10, 6, 1],
     #v[13, 0, 11, 7, 4, 9, 1, 10, 14, 3, 5, 12, 2, 15, 8, 6],
     #v[1, 4, 11, 13, 12, 3, 7, 14, 10, 15, 6, 8, 0, 5, 9, 2],
     #v[6, 11, 13, 8, 1, 4, 10, 7, 9, 5, 0, 15, 14, 2, 3, 12]]

/-- `S8_MATRIX` (R118). -/
def s8Matrix : SboxMatrix :=
  #v[#v[13, 2, 8, 4, 6, 15, 11, 1, 10, 9, 3, 14, 5, 0, 12, 7],
     #v[1, 15, 13, 8, 10, 3, 7, 4, 12, 5, 6, 11, 0, 14, 9, 2],
     #v[7, 11, 4, 1, 9, 12, 14, 2, 0, 6, 10, 13, 15, 3, 5, 8],
     #v[2, 1, 14, 7, 4, 10, 8, 13, 15, 12, 9, 0, 3, 5, 6, 11]]

/-- The eight boxes `S1` to `S8`, fixed and the same in every round (R121). -/
def sboxMatrices : Vector SboxMatrix 8 :=
  #v[s1Matrix, s2Matrix, s3Matrix, s4Matrix, s5Matrix, s6Matrix, s7Matrix, s8Matrix]

/-- The flat tables of R122, each one 64-digit hexadecimal number; digit `g` from the left is the value at address
`g`. The matrices win where the two disagree; Laws/Tables.lean shows that they agree. -/
def sboxFlats : Vector Nat 8 :=
  #v[0xE04FD7142EF2BD813AA66CCB599503784F1CE882D46921B7F5CB937E3AA0560D,
     0xF31D84E76FB2384E9C7021DAC6095BA50DE87AB1A34FD4125B86C76C90352EF9,
     0xAD0790E96334F65A12D8C57EBC4B2F81D16A4D9086F93807B41F2EC35BA5E27C,
     0x7DD8EB35066F90A31427825CB1CA4EF9A36F9006CAB17DD8F91435EB5C27824E,
     0x2ECB421C74A7BD6185503FFAD309E8964B281CB7A1DE728DF69FC0596A3405E3,
     0xCA1FA4F2972C698506D13D4EE07B53B894E3F25C2985CF3A7B0E41A716D0B86D,
     0x4DB02BE7F40981DA3EC3957C52AF6816164BBDD8C1347AE7A9F5608F0E52932C,
     0xD12F8D486AF3B714AC9536EB500EC97272B14E1794CAE82D0F6CA9D0F335568B]

/-- `SHIFT[1..16]`, the sixteen-entry list of R151 (90_conflicts.md C1). -/
def shiftTable : Vector Nat 16 :=
  #v[1, 1, 2, 2, 2, 2, 2, 2, 1, 2, 2, 2, 2, 2, 2, 1]

end Sys2Proof.Machine
end

