-- ==== Sys2Proof/Machine/Permute.lean ====
section
/-! DEFINITION. Family bit_permutation_stages (spec/40_bit_permutation_stages.md R90 to R99): the one primitive
`PERMUTE` (spec/00_scope.md R13, R14) and its six instances. All are pure functions: no state, no fault. -/

namespace Sys2Proof.Machine

/-- `dbit(v, n, i) = v[n - i]`: DES bit `i` of an `n`-bit value, bit 1 the most significant (R13). -/
def dbit {n : Nat} (v : BitVec n) (i : Nat) : Bool := v.getLsbD (n - i)

/-- The selected bits, first entry most significant, as a number. -/
def gather {n : Nat} (t : List Nat) (v : BitVec n) : Nat :=
  t.foldl (fun acc e => 2 * acc + (dbit v e).toNat) 0

/-- `PERMUTE(v, n, t)` with an `m`-bit result: DES bit `j` of the result is DES bit `t[j]` of `v` (R14, R90). -/
def permute {n : Nat} (m : Nat) (t : List Nat) (v : BitVec n) : BitVec m := BitVec.ofNat m (gather t v)

/-- `IP`, the initial permutation (R91). -/
def ip (b : Block) : Block := permute 64 ipTable b

/-- `FP`, the final permutation IP^-1 (R92). -/
def fp (b : Block) : Block := permute 64 fpTable b

/-- `E`, the expansion (R93). -/
def expand (r : Half) : RoundKey := permute 48 eTable r

/-- `P`, the permutation of the round function (R94). -/
def pPerm (x : Half) : Half := permute 32 pTable x

/-- `PC1`, permuted choice 1: the eight bits 8, 16, .., 64 of the key are dropped (R95). -/
def pc1 (k : Key) : KeyState := permute 56 pc1Table k

/-- `PC2`, permuted choice 2 (R96). -/
def pc2 (cd : KeyState) : RoundKey := permute 48 pc2Table cd

end Sys2Proof.Machine
end

