-- ==== Sys2Proof/Machine/Operands.lean ====
section
/-! DEFINITION. How operands and halves are taken apart and put together (spec/20_memory.md R51 to R54,
spec/30_encoding.md R72). There is one operand form: the 64-bit operand of a command, used exactly as presented. -/

namespace Sys2Proof.Machine

/-- Bits 63:32 of a block: DES bits 1 to 32, the half `L` (R21, R54). -/
def highHalf (b : Block) : Half := b.extractLsb' 32 32

/-- Bits 31:0 of a block: DES bits 33 to 64, the half `R` (R21, R54). -/
def lowHalf (b : Block) : Half := b.extractLsb' 0 32

/-- Bits 55:28 of the key state: the half `C` (R22, R152). -/
def highKeyHalf (cd : KeyState) : KeyHalf := cd.extractLsb' 28 28

/-- Bits 27:0 of the key state: the half `D` (R22, R152). -/
def lowKeyHalf (cd : KeyState) : KeyHalf := cd.extractLsb' 0 28

/-- `L_0` of a block operand: the high half of `IP(b)` (R135, R175). -/
def leftOperand (b : Block) : Half := highHalf (ip b)

/-- `R_0` of a block operand: the low half of `IP(b)` (R135, R175). -/
def rightOperand (b : Block) : Half := lowHalf (ip b)

/-- `C_0` of a key operand: the high half of `PC1(k)` (R152, R172). -/
def cOperand (k : Key) : KeyHalf := highKeyHalf (pc1 k)

/-- `D_0` of a key operand: the low half of `PC1(k)` (R152, R172). -/
def dOperand (k : Key) : KeyHalf := lowKeyHalf (pc1 k)

/-- A block as eight bytes of text, `b0 = v[63:56]` first (R51). -/
def blockBytes (v : Block) : Vector (BitVec 8) 8 := Vector.ofFn (fun i => v.extractLsb' (56 - 8 * i.val) 8)

/-- The block of eight bytes of text, the first byte most significant (R51). -/
def blockOfBytes (t : Vector (BitVec 8) 8) : Block :=
  t[0] ++ t[1] ++ t[2] ++ t[3] ++ t[4] ++ t[5] ++ t[6] ++ t[7]

end Sys2Proof.Machine
end

