-- ==== Sys2Proof/Machine/Sbox.lean ====
section
/-! DEFINITION. Family sbox_substitution (spec/41_sbox_substitution.md R110 to R122). -/

namespace Sys2Proof.Machine

/-- `row(g) = g[5] ‖ g[0]`: the first bit of the group is the high bit of the row (R110). -/
def sboxRow (g : BitVec 6) : BitVec 2 := g.extractLsb' 5 1 ++ g.extractLsb' 0 1

/-- `col(g) = g[4:1]` (R110). -/
def sboxCol (g : BitVec 6) : BitVec 4 := g.extractLsb' 1 4

/-- `RomRead(Sj, g)`, with box `Sj` of the spec at index `j - 1`: `Sj_MATRIX[row(g)][col(g)]` (R16, R55, R110).
Total: every 6-bit address is populated. -/
def romRead (j : Fin 8) (g : BitVec 6) : BitVec 4 := (sboxMatrices[j][(sboxRow g).toNat])[(sboxCol g).toNat]

/-- The address of box `S(j+1)` in the 48-bit value: group 1 is `x[47:42]`, group 8 is `x[5:0]` (R54, R119). -/
def sboxGroup (x : RoundKey) (j : Fin 8) : BitVec 6 := x.extractLsb' (42 - 6 * j.val) 6

/-- `SBOX(x) = y_1 ‖ .. ‖ y_8`, eight independent lookups (R119). -/
def sbox (x : RoundKey) : Half :=
  romRead 0 (sboxGroup x 0) ++ romRead 1 (sboxGroup x 1) ++ romRead 2 (sboxGroup x 2) ++ romRead 3 (sboxGroup x 3) ++
    romRead 4 (sboxGroup x 4) ++ romRead 5 (sboxGroup x 5) ++ romRead 6 (sboxGroup x 6) ++ romRead 7 (sboxGroup x 7)

/-- `Sj_FLAT[g]`, digit `g` from the left of the flat table (R110, R122). -/
def flatRead (j : Fin 8) (g : BitVec 6) : BitVec 4 := BitVec.ofNat 4 (sboxFlats[j] >>> (4 * (63 - g.toNat)))

end Sys2Proof.Machine
end

