-- ==== Sys2Proof/Machine/Feistel.lean ====
section
/-! DEFINITION. Family Feistel rounds (spec/42_feistel_rounds.md R130 to R141): the round function, one round, the whole
block function. Pure functions: the commands run them on the registers. -/

namespace Sys2Proof.Machine

/-- The pair of halves `(L, R)` (R131). -/
abbrev Halves := Half × Half

/-- `F(r, k) = P(SBOX(E(r) ^ k))` (R130). -/
def feistelF (r : Half) (k : RoundKey) : Half := pPerm (sbox (expand r ^^^ k))

/-- `ROUND(l, r, k) = (r, l ^ F(r, k))` (R131). -/
def feistelRound (h : Halves) (k : RoundKey) : Halves := (h.2, h.1 ^^^ feistelF h.2 k)

/-- `ROUND_INV(l', r', k) = (r' ^ F(l', k), l')` (R131). -/
def feistelRoundInv (h : Halves) (k : RoundKey) : Halves := (h.2 ^^^ feistelF h.1 k, h.1)

/-- The key of round `n = i + 1`: `ks[n]` to encrypt, `ks[17 - n]` to decrypt (R135, R177). -/
def roundKeyAt (ks : Schedule) (decrypt : Bool) (i : Fin 16) : RoundKey := if decrypt then ks[i.rev] else ks[i]

/-- The sixteen round keys in the order the rounds read them (R135, R136, R137). -/
def keySequence (ks : Schedule) (decrypt : Bool) : List RoundKey := (List.finRange 16).map (roundKeyAt ks decrypt)

/-- `(L_0, R_0)`: the halves of `IP(b)` (R135). -/
def initialHalves (b : Block) : Halves := (leftOperand b, rightOperand b)

/-- `(L_n, R_n)`: the halves after the first `n` rounds (R131, R135). -/
def halvesAfter (b : Block) (ks : Schedule) (decrypt : Bool) (n : Nat) : Halves :=
  ((keySequence ks decrypt).take n).foldl feistelRound (initialHalves b)

/-- `FP(r ‖ l)`: the halves are exchanged before the final permutation (R132). -/
def outputOf (h : Halves) : Block := fp (h.2 ++ h.1)

/-- `CRYPT(b, ks, dir)` (R135); `decrypt` is `dir = 1`. -/
def crypt (b : Block) (ks : Schedule) (decrypt : Bool) : Block := outputOf (halvesAfter b ks decrypt 16)

end Sys2Proof.Machine
end

