-- ==== Sys2Proof/Machine/KeySchedule.lean ====
section
/-! DEFINITION. Family key schedule (spec/43_key_schedule.md R150 to R158), and the block functions on a key
(spec/42_feistel_rounds.md R136, R137). -/

namespace Sys2Proof.Machine

/-- The pair of key halves `(C, D)` (R152). -/
abbrev KeyHalves := KeyHalf × KeyHalf

/-- `ROTL28(v, s)`: rotation left within 28 bits (R150, R18). -/
def rotl28 (v : KeyHalf) (s : Nat) : KeyHalf := v.rotateLeft s

/-- Both halves rotated, each within its own 28 bits (R150, R152). -/
def rotateHalves (h : KeyHalves) (s : Nat) : KeyHalves := (rotl28 h.1 s, rotl28 h.2 s)

/-- `(C_0, D_0)`: the halves of `PC1(k)` (R152). -/
def initialKeyHalves (k : Key) : KeyHalves := (cOperand k, dOperand k)

/-- `(C_n, D_n)`: the halves after the rotations of rounds 1 to `n` (R152). -/
def keyHalvesAfter (k : Key) (n : Nat) : KeyHalves := (shiftTable.toList.take n).foldl rotateHalves (initialKeyHalves k)

/-- `PC2(C ‖ D)` (R153). -/
def roundKeyOf (h : KeyHalves) : RoundKey := pc2 (h.1 ++ h.2)

/-- `KS(k)`: entry `i` is `K_(i+1)`, from the halves after the rotation of round `i + 1` (R153, R156). -/
def keySchedule (k : Key) : Schedule := Vector.ofFn (fun i => roundKeyOf (keyHalvesAfter k (i.val + 1)))

/-- `ENCRYPT_BLOCK(b, key) = CRYPT(b, KS(key), 0)` (R136). -/
def encryptBlock (b : Block) (key : Key) : Block := crypt b (keySchedule key) false

/-- `DECRYPT_BLOCK(b, key) = CRYPT(b, KS(key), 1)` (R137). -/
def decryptBlock (b : Block) (key : Key) : Block := crypt b (keySchedule key) true

end Sys2Proof.Machine
end

