-- ==== Sys2Proof/Machine/Ops.lean ====
section
/-! DEFINITION. The named operations over the registers: the round-key file, taking a fault and the one way out of it
(reset), acceptance, and what a command writes at its accepting edge (spec/44_commands.md, spec/60_exceptions.md R203,
R204, spec/70_reset_and_hazards.md R220). Every right-hand side reads the values before the edge (R15). -/

namespace Sys2Proof.Machine

/-- The round-key index of a busy round: `RND = n` in 1..16 selects entry `n - 1`; 0 selects none (R25, R31). -/
def roundSlot (rnd : Fin 17) : Option (Fin 16) :=
  if h : 0 < rnd.val then some ⟨rnd.val - 1, by omega⟩ else none

/-- `RND` of the round after round `i + 1`: one more, and 0 after the sixteenth (R31). -/
def nextRnd (i : Fin 16) : Fin 17 := if h : i.val < 15 then ⟨i.val + 2, by omega⟩ else 0

/-- Round `i + 1` is the last one (R31). -/
def isLastRound (i : Fin 16) : Bool := i.val == 15

/-- `RK[i + 1] <- v`, the whole register at one edge (R25, R58). -/
def writeRk (s : State) (i : Fin 16) (v : RoundKey) : State := { s with rk := s.rk.set i.val v }

/-- `raise Fault(code)`: `ERR <- 1`, `ECODE <- code`, every other element keeps its value; there is no vector, no saved
value and no mode change (R17, R203). -/
def raiseFault (code : ECode) (s : State) : State := { s with err := true, ecode := code }

/-- Reset of every element (R220). There is no return from a fault: this is the only exit from `ERR = 1` (R204). The
inputs still to come are the host's and stay. -/
def resetRegs (s : State) : State := { State.reset with pending := s.pending }

/-- A command takes effect only at an edge with `cmd_ready = 1`; otherwise it is not accepted and leaves no trace, which
is not a fault (R40, R202). -/
def accept (s : State) (accepted : State) : Host.Outcome State Fault Refusal :=
  if cmdReady s then .next accepted else .next s

/-- `LDKEY` at its accepting edge (R172). -/
def startKeygen (k : Key) (s : State) : State :=
  { s with c := cOperand k, d := dOperand k, keyValid := false, phase := .keygen, rnd := 1 }

/-- `ENC` (`decrypt = false`) and `DEC` (`decrypt = true`) at the accepting edge with a valid schedule (R175, R176). -/
def startCrypt (decrypt : Bool) (b : Block) (s : State) : State :=
  { s with l := leftOperand b, r := rightOperand b, decr := decrypt, isDone := false, phase := .crypt, rnd := 1 }

/-- `ENC` and `DEC` at the accepting edge: without a valid schedule the fault `NO_KEY` (R175, R176, R182). -/
def acceptBlock (decrypt : Bool) (b : Block) (s : State) : State :=
  if s.keyValid then startCrypt decrypt b s else raiseFault .noKey s

/-- `CLR`: everything derived from key or data is zeroed (R180). -/
def clearData (s : State) : State :=
  { s with
    l := 0, r := 0, c := 0, d := 0, dout := 0, rk := Vector.replicate 16 0,
    keyValid := false, isDone := false, decr := false }

end Sys2Proof.Machine
end

