-- ==== Sys2Proof/Machine/BlockCommands.lean ====
section
/-! DEFINITION. `ENC` and `DEC` (spec/44_commands.md R175 to R179, R182). -/

namespace Sys2Proof.Machine

/-- `ENC b` at the command port (R175): `L`, `R` take the halves of `IP(b)` and the rounds start, in the encrypting
direction; `NO_KEY` without a valid schedule (R182). The sixteen steps that follow are `roundStep`. -/
def execEnc (b : Block) (s : State) : Host.Outcome State Fault Refusal := accept s (acceptBlock false b s)

/-- `DEC b` at the command port (R176): as `ENC` with `DECR <- 1`. -/
def execDec (b : Block) (s : State) : Host.Outcome State Fault Refusal := accept s (acceptBlock true b s)

end Sys2Proof.Machine
end

