-- ==== Sys2Proof/Machine/KeyCommands.lean ====
section
/-! DEFINITION. `LDKEY` (spec/44_commands.md R172 to R174). -/

namespace Sys2Proof.Machine

/-- `LDKEY k` at the command port: at the accepting edge `C`, `D` take the halves of `PC1(k)` and key generation starts
(R172). It raises no fault; a loaded key may be loaded over. The sixteen steps that follow are `keygenStep`. -/
def execLdkey (k : Key) (s : State) : Host.Outcome State Fault Refusal := accept s (startKeygen k s)

end Sys2Proof.Machine
end

