-- ==== Sys2Proof/Machine/SystemCommands.lean ====
section
/-! DEFINITION. `NOP`, `CLR` and the reserved opcodes (spec/44_commands.md R171, R180, R181). -/

namespace Sys2Proof.Machine

/-- `NOP`: acceptance changes no state (R171). -/
def execNop (s : State) : Host.Outcome State Fault Refusal := accept s s

/-- `CLR`: in one edge every register and flag of R20 is 0 again (R180). -/
def execClr (s : State) : Host.Outcome State Fault Refusal := accept s (clearData s)

/-- Opcode 0b101: accepting it raises `RSVD_OP` (R181). -/
def execRsvd5 (s : State) : Host.Outcome State Fault Refusal := accept s (raiseFault .rsvdOp s)

/-- Opcode 0b110: accepting it raises `RSVD_OP` (R181). -/
def execRsvd6 (s : State) : Host.Outcome State Fault Refusal := accept s (raiseFault .rsvdOp s)

/-- Opcode 0b111: accepting it raises `RSVD_OP` (R181). -/
def execRsvd7 (s : State) : Host.Outcome State Fault Refusal := accept s (raiseFault .rsvdOp s)

end Sys2Proof.Machine
end

