-- ==== Sys2Proof/Machine/Dispatch.lean ====
section
/-! DEFINITION. What a command does when the host presents it with `cmd_valid = 1` and `rst = 0` (spec/44_commands.md
R170 case 6): one arm per constructor. -/

namespace Sys2Proof.Machine

/-- The effect of a presented command. The sixteen steps that follow an accepted `LDKEY`, `ENC` or `DEC` are edges of
their own (R173, R177): see Machine/Edge.lean; Machine/Whole.lean gives each command as a whole. -/
def exec (i : Instr) (s : State) : Host.Outcome State Fault Refusal :=
  match i with
  | .nop => Sys2Proof.Machine.execNop s
  | .ldkey key => Sys2Proof.Machine.execLdkey key s
  | .enc block => Sys2Proof.Machine.execEnc block s
  | .dec block => Sys2Proof.Machine.execDec block s
  | .clr => Sys2Proof.Machine.execClr s
  | .rsvd5 => Sys2Proof.Machine.execRsvd5 s
  | .rsvd6 => Sys2Proof.Machine.execRsvd6 s
  | .rsvd7 => Sys2Proof.Machine.execRsvd7 s

end Sys2Proof.Machine
end

