-- ==== Sys2Proof/Machine/Sequencer.lean ====
section
/-! DEFINITION. The steps of a running command: one key-generation step or one round an edge (spec/44_commands.md R173,
R177). -/

namespace Sys2Proof.Machine

/-- The register writes of key-generation step `i + 1` (R173). -/
def keygenAt (i : Fin 16) (s : State) : State :=
  let h := rotateHalves (s.c, s.d) shiftTable[i]
  let t := writeRk { s with c := h.1, d := h.2, rnd := nextRnd i } i (roundKeyOf h)
  if isLastRound i then { t with phase := .idle, keyValid := true } else t

/-- The register writes of round step `i + 1` (R177). At the last step `DOUT` is computed from the new halves. -/
def roundAt (i : Fin 16) (s : State) : State :=
  let h := feistelRound (s.l, s.r) (roundKeyAt s.rk s.decr i)
  let t := { s with l := h.1, r := h.2, rnd := nextRnd i }
  if isLastRound i then { t with dout := outputOf h, isDone := true, phase := .idle } else t

/-- The key-generation step at an edge with `PHASE = KEYGEN` (R173); `RND = 0` there is stuck (U8). -/
def keygenStep (s : State) : Host.Outcome State Fault Refusal :=
  match roundSlot s.rnd with
  | some i => .next (keygenAt i s)
  | none => .fault .sequencerStuck

/-- The round step at an edge with `PHASE = CRYPT` (R177); `RND = 0` there is stuck (U8). -/
def roundStep (s : State) : Host.Outcome State Fault Refusal :=
  match roundSlot s.rnd with
  | some i => .next (roundAt i s)
  | none => .fault .sequencerStuck

end Sys2Proof.Machine
end

