-- ==== Sys2Proof/Machine/Edge.lean ====
section
/-! DEFINITION. One rising edge of `clk` (spec/44_commands.md R170, R183; spec/60_exceptions.md R206). -/

namespace Sys2Proof.Machine

/-- The host presents nothing: `rst = 0`, `cmd_valid = 0` (R183). -/
def idlePort : PortIn := ⟨false, false, 0⟩

/-- The host holds `rst = 1` (R220). -/
def resetPort : PortIn := ⟨true, false, 0⟩

/-- The host presents a command word with `cmd_valid = 1` (R40). -/
def cmdPort (w : CmdWord) : PortIn := ⟨false, true, w⟩

/-- The step function of R170, its six cases in the order that is the priority order (R206): reset, key-generation step,
round step, halted, idle, acceptance. -/
def edge (p : PortIn) (s : State) : Host.Outcome State Fault Refusal :=
  if p.rst then .next (resetRegs s)
  else
    match s.phase with
    | .keygen => keygenStep s
    | .crypt => roundStep s
    | .idle =>
      if s.err then .next s
      else if p.cmdValid then exec (decodeWord p.cmd) s
      else .next s

/-- The edges with the given inputs, one after the other, stopping at the first that does not give a next state. -/
def edges : List PortIn → State → Host.Outcome State Fault Refusal
  | [], s => .next s
  | p :: ps, s =>
    match edge p s with
    | .next t => edges ps t
    | .fault r => .fault r
    | .refused r => .refused r

/-- A command is accepted at an edge with `rst = 0`, `cmd_valid = 1`, `cmd_ready = 1` (R40). -/
def acceptedAt (p : PortIn) (s : State) : Bool := !p.rst && p.cmdValid && cmdReady s

/-- The input ports at the coming edge; once the listed inputs are used up the host presents nothing
(notes/assumptions/1.md). -/
def portNow (s : State) : PortIn := s.pending.headD idlePort

/-- The state with the coming edge's inputs taken off the list. -/
def dropPort (s : State) : State := { s with pending := s.pending.tail }

/-- A command word presented at the very next edge, in a core that is ready for it: `cmd_ready = 1` needs `PHASE = IDLE`
(with `RND = 0`) and `ERR = 0` (with `ECODE = 0`), R36, R39, R43. -/
def presentNext (w : CmdWord) (s : State) : State :=
  { s with phase := .idle, rnd := 0, err := false, ecode := .none, pending := cmdPort w :: s.pending }

end Sys2Proof.Machine
end

