-- ==== Sys2Proof/Machine/Step.lean ====
section
/-! DEFINITION. The machine's step: the next rising edge of `clk`, with the inputs the host has lined up
(spec/44_commands.md R170). -/

namespace Sys2Proof.Machine

/-- One rising edge. -/
def step (s : State) : Host.Outcome State Fault Refusal := edge (portNow s) (dropPort s)

/-- The core has no stored program (R27): a command comes to run when the host presents it at the command port. This puts
an opcode-table word there for the very next edge (notes/assumptions/2.md). -/
def State.withFetchWord (s : State) (nbits w : Nat) : State := presentNext (BitVec.ofNat 67 (w % 2 ^ nbits)) s

end Sys2Proof.Machine
end

