-- ==== Sys2Proof/Machine/Whole.lean ====
section
/-! DEFINITION. The commands as a whole (spec/44_commands.md R171, R174, R178 to R182, R184): the command-level machine
whose step is one whole command. The edge-level machine of Machine/Step.lean is THE model; this is the other level that
R184 names, and a statement says that the two agree. -/

namespace Sys2Proof.Machine

/-- `LDKEY k` as a whole (R174). -/
def loadKeyWhole (k : Key) (s : State) : State :=
  { s with
    rk := keySchedule k, c := cOperand k, d := dOperand k, keyValid := true, phase := .idle, rnd := 0 }

/-- `ENC b` (`decrypt = false`) and `DEC b` (`decrypt = true`) as a whole (R178, R179), `NO_KEY` without a valid schedule
(R182). -/
def cryptWhole (decrypt : Bool) (b : Block) (s : State) : State :=
  if s.keyValid then
    { s with
      l := (halvesAfter b s.rk decrypt 16).1, r := (halvesAfter b s.rk decrypt 16).2,
      dout := crypt b s.rk decrypt, isDone := true, decr := decrypt, phase := .idle, rnd := 0 }
  else raiseFault .noKey s

/-- The big-step effect of one command on an idle core; with `ERR = 1` no command has any effect (R184). -/
def commandEffect (i : Instr) (s : State) : State :=
  if s.err then s
  else
    match i with
    | .nop => s
    | .ldkey k => loadKeyWhole k s
    | .enc b => cryptWhole false b s
    | .dec b => cryptWhole true b s
    | .clr => clearData s
    | .rsvd5 => raiseFault .rsvdOp s
    | .rsvd6 => raiseFault .rsvdOp s
    | .rsvd7 => raiseFault .rsvdOp s

/-- The effect of a command sequence: the composition of the big-step effects, in order (R184). -/
def commandsEffect (is : List Instr) (s : State) : State := is.foldl (fun t i => commandEffect i t) s

/-- The edges of one command in the reference timing, the accepting edge included (R230). -/
def commandEdges (i : Instr) (s : State) : Nat :=
  if s.err then 1
  else
    match i with
    | .ldkey _ => 1 + Config.tLdkey
    | .enc _ => if s.keyValid then 1 + Config.tCrypt else 1
    | .dec _ => if s.keyValid then 1 + Config.tCrypt else 1
    | .nop => 1
    | .clr => 1
    | .rsvd5 => 1
    | .rsvd6 => 1
    | .rsvd7 => 1

end Sys2Proof.Machine
end

