-- ==== Sys2Proof/Machine/Script.lean ====
section
/-! DEFINITION. The script statements and the pseudo-instructions (spec/30_encoding.md R77, R78): how a host that follows
the handshake drives the core. A script drives the edges itself, and leaves the list `pending` alone. -/

namespace Sys2Proof.Machine

/-- A script statement (R77). -/
inductive Stmt where
  /-- `NOP`, `LDKEY k`, `ENC b`, `DEC b`, `CLR`. -/
  | command (i : Instr)
  /-- `.word w`: any raw 67-bit command word. -/
  | word (w : CmdWord)
  /-- `RESET`: hold `rst = 1` for one rising edge. -/
  | reset
  /-- `IDLE n`: hold `cmd_valid = 0` for `n` edges. -/
  | idle (n : Nat)
  /-- `READ`: wait until `out_valid = 1` and yield `DOUT`. -/
  | read
  deriving DecidableEq, Repr

/-- Where a script stands after running. -/
inductive ScriptRun where
  /-- Every statement completed; the blocks read, in order. -/
  | finished (s : State) (reads : List Block)
  /-- A statement waits for ever, in this settled state; the blocks read before it (notes/assumptions/9.md). -/
  | waiting (s : State) (reads : List Block)
  /-- The machine stopped with a fault. -/
  | stopped (r : Fault) (reads : List Block)
  /-- The machine refused a command. -/
  | refused (r : Refusal) (reads : List Block)
  deriving DecidableEq, Repr

/-- The reads of a statement, put before those of the statements after it. -/
def ScriptRun.after (first : List Block) : ScriptRun → ScriptRun
  | .finished s reads => .finished s (first ++ reads)
  | .waiting s reads => .waiting s (first ++ reads)
  | .stopped r reads => .stopped r (first ++ reads)
  | .refused r reads => .refused r (first ++ reads)

/-- `n` edges at which the host presents nothing, cut short as soon as `ready` holds. -/
def waitFor (ready : State → Bool) : Nat → State → Host.Outcome State Fault Refusal
  | 0, s => .next s
  | n + 1, s =>
    if ready s then .next s
    else
      match edge idlePort s with
      | .next t => waitFor ready n t
      | .fault r => .fault r
      | .refused r => .refused r

/-- The longest wait after which something can still change: a busy core is idle within 16 edges (R231). -/
def waitBound : Nat := 16

/-- "wait until `ready`, then act": a state in which `ready` still fails after the longest wait keeps failing, and the
statement never completes. -/
def whenReady (ready : State → Bool) (act : State → ScriptRun) (s : State) : ScriptRun :=
  match waitFor ready waitBound s with
  | .next t => if ready t then act t else .waiting t []
  | .fault r => .stopped r []
  | .refused r => .refused r []

/-- One edge with the given inputs, as a completed statement. -/
def oneEdge (p : PortIn) (s : State) : ScriptRun :=
  match edge p s with
  | .next t => .finished t []
  | .fault r => .stopped r []
  | .refused r => .refused r []

/-- One statement (R77): a command waits for `cmd_ready = 1` and is then presented for one accepting edge. -/
def runStmt : Stmt → State → ScriptRun
  | .command i, s => whenReady cmdReady (oneEdge (cmdPort (encode i))) s
  | .word w, s => whenReady cmdReady (oneEdge (cmdPort w)) s
  | .reset, s => oneEdge resetPort s
  | .idle n, s =>
    match waitFor (fun _ => false) n s with
    | .next t => .finished t []
    | .fault r => .stopped r []
    | .refused r => .refused r []
  | .read, s => whenReady (fun t => t.isDone) (fun t => .finished t [t.dout]) s

/-- A script: its statements in order. -/
def runScript : List Stmt → State → ScriptRun
  | [], s => .finished s []
  | x :: xs, s =>
    match runStmt x s with
    | .finished t reads => (runScript xs t).after reads
    | .waiting t reads => .waiting t reads
    | .stopped r reads => .stopped r reads
    | .refused r reads => .refused r reads

/-- `ENCRYPT k, b1, .., bn == LDKEY k ; ENC b1 ; READ ; .. ; ENC bn ; READ ; CLR` (R78). -/
def encryptCall (k : Key) (bs : List Block) : List Stmt :=
  .command (.ldkey k) :: bs.flatMap (fun b => [.command (.enc b), .read]) ++ [.command .clr]

/-- `DECRYPT k, b1, .., bn == LDKEY k ; DEC b1 ; READ ; .. ; DEC bn ; READ ; CLR` (R78). -/
def decryptCall (k : Key) (bs : List Block) : List Stmt :=
  .command (.ldkey k) :: bs.flatMap (fun b => [.command (.dec b), .read]) ++ [.command .clr]

end Sys2Proof.Machine
end

