-- ==== Sys2Proof/Safety.lean ====
section
/-! DEFINITION. What a good state and a good run are: the invariants of spec/10_state.md R43, the host's history that the
last of them speaks of, the premise "no fault recorded" of spec/60_exceptions.md R203, and the control part of the state
that no data may influence (R37). -/

namespace Sys2Proof.Safety

open Sys2Proof.Machine

/-- The first four invariants of R43: what `PHASE`, `RND` and the flags can be together. -/
abbrev ControlInv (s : State) : Prop :=
  (s.phase = .idle ↔ s.rnd = 0) ∧
  (s.phase = .keygen → s.keyValid = false) ∧
  (s.phase = .crypt → s.keyValid = true ∧ s.isDone = false) ∧
  (s.err = true → s.phase = .idle ∧ s.ecode ≠ .none) ∧
  (s.err = false → s.ecode = .none)

/-- The premise under which claims about a run are made: no fault is recorded (R203). -/
abbrev NoFaultRecorded (s : State) : Prop := s.err = false

/-- What the host has asked for, as far as the invariants of R43 speak of it. It is no state of the machine. -/
structure History where
  /-- The operand of the most recent accepted `LDKEY`, if its schedule was not discarded since. -/
  key : Option Key
  /-- The operand of the most recent `ENC` or `DEC` accepted as work, with the key whose schedule was loaded then. -/
  work : Option (Block × Key)
  deriving DecidableEq, Repr

/-- Nothing asked for: after reset or `CLR`. -/
def History.empty : History := ⟨none, none⟩

/-- What an edge with inputs `p` in state `s` adds to the history. -/
def historyNext (p : PortIn) (s : State) (g : History) : History :=
  if p.rst then .empty
  else if acceptedAt p s then
    match decodeWord p.cmd with
    | .nop => g
    | .ldkey k => { g with key := some k }
    | .enc b => if s.keyValid then { g with work := g.key.map (fun k => (b, k)) } else g
    | .dec b => if s.keyValid then { g with work := g.key.map (fun k => (b, k)) } else g
    | .clr => .empty
    | .rsvd5 => g
    | .rsvd6 => g
    | .rsvd7 => g
  else g

/-- `KEY_VALID = 1` implies that `RK` is the schedule of the key the host loaded, and `C ‖ D = PC1(k)` (R43). -/
abbrev KeyInv (g : History) (s : State) : Prop :=
  s.keyValid = true → ∃ k, g.key = some k ∧ s.rk = keySchedule k ∧ s.c ++ s.d = pc1 k

/-- While `LDKEY k` runs with `RND = n`, `(C, D) = (C_(n-1), D_(n-1))` and `RK[1..n-1]` are the round keys of `k`
(R173). -/
abbrev KeygenInv (g : History) (s : State) : Prop :=
  s.phase = .keygen → ∃ k, g.key = some k ∧ (s.c, s.d) = keyHalvesAfter k (s.rnd.val - 1) ∧
    ∀ i : Fin 16, i.val + 1 < s.rnd.val → s.rk[i] = (keySchedule k)[i]

/-- While `ENC b` or `DEC b` runs with `RND = n`, `(L, R)` are the halves after `n - 1` rounds under the loaded schedule
(R177). -/
abbrev CryptInv (g : History) (s : State) : Prop :=
  s.phase = .crypt → ∃ b k, g.work = some (b, k) ∧ g.key = some k ∧
    (s.l, s.r) = halvesAfter b (keySchedule k) s.decr (s.rnd.val - 1)

/-- `DONE = 1` implies that `DOUT = CRYPT(b, RK, DECR)` for the operand of the most recent `ENC`/`DEC`, with the schedule
that was loaded when it ran (R43). -/
abbrev OutputInv (g : History) (s : State) : Prop :=
  s.isDone = true → ∃ b k, g.work = some (b, k) ∧ s.dout = crypt b (keySchedule k) s.decr

/-- All of R43, relative to what the host has asked for, with what it takes inside a running command. -/
abbrev HistoryInv (g : History) (s : State) : Prop :=
  ControlInv s ∧ KeyInv g s ∧ KeygenInv g s ∧ CryptInv g s ∧ OutputInv g s

/-- The control part of the state: everything but keys, blocks, round keys and the inputs to come (R37). -/
def controlOf (s : State) : Fin 17 × Phase × Bool × Bool × Bool × Bool × ECode :=
  (s.rnd, s.phase, s.decr, s.keyValid, s.isDone, s.err, s.ecode)

/-- Inputs that may differ in the operand of the command only. -/
abbrev SameExceptOperand (p q : PortIn) : Prop :=
  p.rst = q.rst ∧ p.cmdValid = q.cmdValid ∧ opField p.cmd = opField q.cmd

/-- No input in the list resets the core. -/
abbrev NoReset (ps : List PortIn) : Prop := ∀ p ∈ ps, p.rst = false

/-- Every input in the list resets the core. -/
abbrev AllReset (ps : List PortIn) : Prop := ∀ p ∈ ps, p.rst = true

/-- The host presents nothing and does not reset. -/
abbrev NothingPresented (ps : List PortIn) : Prop := ∀ p ∈ ps, p.rst = false ∧ p.cmdValid = false

/-- What the host has asked for after a list of inputs, starting in state `s` with history `g`. -/
def historyAfter : List PortIn → State → History → History
  | [], _, g => g
  | p :: ps, s, g =>
    match edge p s with
    | .next t => historyAfter ps t (historyNext p s g)
    | .fault _ => g
    | .refused _ => g

/-- The commands accepted at the edges with the given inputs, in order (R40). -/
def acceptedBy : List PortIn → State → List Instr
  | [], _ => []
  | p :: ps, s =>
    (if acceptedAt p s then [decodeWord p.cmd] else []) ++
      match edge p s with
      | .next t => acceptedBy ps t
      | .fault _ => []
      | .refused _ => []

/-- The inputs of a host that runs a list of commands: one edge that presents a command, then any inputs of the host's
choice, and so on. -/
def programInputs (prog : List (Instr × List PortIn)) : List PortIn := prog.flatMap (fun c => cmdPort (encode c.1) :: c.2)

/-- The host follows the handshake (R61, R184): the inputs after each command leave it the edges it takes, do not reset
the core, and have no other command accepted; what is presented to the busy or halted core is free. -/
def FollowsHandshake : List (Instr × List PortIn) → State → Prop
  | [], _ => True
  | (i, ps) :: rest, s =>
    commandEdges i s ≤ ps.length + 1 ∧ NoReset ps ∧
      acceptedBy (cmdPort (encode i) :: ps) s = acceptedBy [cmdPort (encode i)] s ∧
      FollowsHandshake rest (commandEffect i s)

/-- A command whose acceptance in state `s` raises a fault (R201). -/
def raisesFault (i : Instr) (s : State) : Bool :=
  match i with
  | .nop => false
  | .ldkey _ => false
  | .enc _ => !s.keyValid
  | .dec _ => !s.keyValid
  | .clr => false
  | .rsvd5 => true
  | .rsvd6 => true
  | .rsvd7 => true

/-- A command word whose acceptance in state `s` raises a fault. -/
def faultingAt (p : PortIn) (s : State) : Bool := acceptedAt p s && raisesFault (decodeWord p.cmd) s

/-- Every output bit of the stage `f` is the input bit that the table names, in DES numbering; the table has one entry for
each output bit, and every entry names an input bit (R90). -/
abbrev StageReads {n m : Nat} (f : BitVec n → BitVec m) (t : List Nat) : Prop :=
  t.length = m ∧ (∀ e ∈ t, 1 ≤ e ∧ e ≤ n) ∧
    ∀ (v : BitVec n) (j : Nat) (hj : j < t.length), dbit (f v) (j + 1) = dbit v t[j]

/-- Linear over bitwise XOR, with the consequence for complements that R98 draws. -/
abbrev XorLinear {n m : Nat} (f : BitVec n → BitVec m) : Prop :=
  (∀ a b, f (a ^^^ b) = f a ^^^ f b) ∧ f 0 = 0 ∧ ∀ a, f (~~~a) = ~~~(f a)

end Sys2Proof.Safety
end

