-- ==== Sys2Proof/Certificates/Slice0/Obligations.lean ====
section
/-! DEFINITION. The statements for the provers, each formalising rules of spec/ over all states or operands. A result is
stated as the whole next state, `{ s with .. }`: what is not named there is unchanged. -/

open Sys2Proof Sys2Proof.Machine Sys2Proof.Safety

/-! ### Reset, acceptance and the order of the cases of one edge -/

/-- R220: an edge with `rst = 1`, whatever the state and the command port, and reset as the only way to clear `ERR`. -/
def Obligations.ResetPutsEveryElementToZero : Prop :=
  (∀ p s, p.rst = true → ∃ t, edge p s = .next t ∧ t.l = 0 ∧ t.r = 0 ∧ t.c = 0 ∧ t.d = 0 ∧ t.dout = 0 ∧
    (∀ i : Fin 16, t.rk[i] = 0) ∧ t.rnd = 0 ∧ t.phase = .idle ∧ t.decr = false ∧ t.keyValid = false ∧
    t.isDone = false ∧ t.err = false ∧ t.ecode = .none ∧ t.pending = s.pending) ∧
  (∀ p s t, s.err = true → p.rst = false → edge p s = .next t → t.err = true)

/-- R221: the outputs after reset, and the first command accepted at the first edge with `rst = 0`. -/
def Obligations.ResetOutputsAreReadyAndZero : Prop :=
  outputs State.reset = ⟨true, false, false, false, 0, false, 0, 0x00⟩ ∧
  ∀ w, acceptedAt (cmdPort w) State.reset = true ∧ edge (cmdPort w) State.reset = exec (decodeWord w) State.reset

/-- R222: `rst` held for several edges is one edge, and the reset state is a fixed point of reset. -/
def Obligations.HeldResetIsOneReset : Prop :=
  (∀ p ps s, p.rst = true → AllReset ps → edges (p :: ps) s = edge p s) ∧
  (∀ p, p.rst = true → edge p State.reset = .next State.reset)

/-- R40 and R202: a command is accepted at an edge with `rst = 0`, `cmd_valid = 1`, `cmd_ready = 1`; at any other edge the
command port has no effect whatever its value, so a command presented to an unready core leaves no trace and records no
fault. -/
def Obligations.CommandPortActsOnlyWhenAccepted : Prop :=
  (∀ p s, acceptedAt p s = true → edge p s = exec (decodeWord p.cmd) s) ∧
  (∀ p q s, p.rst = q.rst → acceptedAt p s = false → acceptedAt q s = false → edge p s = edge q s) ∧
  (∀ p s t, p.rst = false → cmdReady s = false → edge p s = .next t → t.err = s.err ∧ t.ecode = s.ecode)

/-- A step runs the command that the host presents at the coming edge, with that edge's inputs taken off the list; with no
input listed the edge is idle; and `withFetchWord` presents its word to a ready core (the model's convention, log entries
1 and 2). -/
def Obligations.StepRunsThePresentedCommand : Prop :=
  (∀ s p rest i, s.pending = p :: rest → acceptedAt p s = true → decodeWord p.cmd = i → i.wf = true →
    step s = exec i { s with pending := rest }) ∧
  (∀ s p rest, s.pending = p :: rest → step s = edge p { s with pending := rest }) ∧
  (∀ s, s.pending = [] → step s = edge idlePort s) ∧
  (∀ (s : State) nbits w i, decodeTableWord nbits w = some i →
    step (s.withFetchWord nbits w) = exec i { s with phase := .idle, rnd := 0, err := false, ecode := .none })

/-- R170: the cases of one edge, tested in order. -/
def Obligations.EdgeTestsItsCasesInOrder : Prop :=
  ∀ p s,
    (p.rst = true → edge p s = .next { State.reset with pending := s.pending }) ∧
    (p.rst = false → s.phase = .keygen → edge p s = keygenStep s) ∧
    (p.rst = false → s.phase = .crypt → edge p s = roundStep s) ∧
    (p.rst = false → s.phase = .idle → s.err = true → edge p s = .next s) ∧
    (p.rst = false → s.phase = .idle → s.err = false → p.cmdValid = false → edge p s = .next s) ∧
    (p.rst = false → s.phase = .idle → s.err = false → p.cmdValid = true → edge p s = exec (decodeWord p.cmd) s)

/-- R183: an idle core to which nothing is presented holds its state, for any number of edges. -/
def Obligations.IdleCoreHoldsItsState : Prop :=
  ∀ ps s, s.phase = .idle → NothingPresented ps → edges ps s = .next s

/-! ### The commands at their accepting edge, and their steps -/

/-- R171: an accepted `NOP` changes no state, with any operand bits, and `cmd_ready` stays 1. -/
def Obligations.NopChangesNothing : Prop :=
  (∀ s, cmdReady s = true → exec .nop s = .next s) ∧
  (∀ (imm : BitVec 64) s, cmdReady s = true → edge (cmdPort ((0b000 : BitVec 3) ++ imm)) s = .next s)

/-- R172: `LDKEY` at its accepting edge. -/
def Obligations.LdkeyAcceptanceStartsKeyGeneration : Prop :=
  ∀ k s, cmdReady s = true → exec (.ldkey k) s = .next { s with
    c := (pc1 k).extractLsb' 28 28, d := (pc1 k).extractLsb' 0 28, keyValid := false, phase := .keygen, rnd := 1 }

/-- R173: the key-generation step with `RND = n`, here `n = i + 1`. -/
def Obligations.KeyGenerationStepWritesOneRoundKey : Prop :=
  ∀ p s (i : Fin 16), p.rst = false → s.phase = .keygen → s.rnd.val = i.val + 1 →
    ∃ t, edge p s = .next t ∧
      (i.val < 15 → t.rnd.val = i.val + 2 ∧ t.phase = .keygen ∧ t.keyValid = s.keyValid) ∧
      (i.val = 15 → t.rnd = 0 ∧ t.phase = .idle ∧ t.keyValid = true) ∧
      t = { s with
        c := rotl28 s.c shiftTable[i], d := rotl28 s.d shiftTable[i],
        rk := s.rk.set i.val (pc2 (rotl28 s.c shiftTable[i] ++ rotl28 s.d shiftTable[i])),
        rnd := t.rnd, phase := t.phase, keyValid := t.keyValid }

/-- R174: `LDKEY` as a whole: the accepting edge and sixteen edges without reset, whatever is presented meanwhile;
a reset before the last of them aborts it. -/
def Obligations.LdkeyBuildsTheWholeSchedule : Prop :=
  (∀ k s ps, cmdReady s = true → ps.length = 16 → NoReset ps →
    ∃ u t, exec (.ldkey k) s = .next u ∧ edges ps u = .next t ∧ edges (cmdPort (encode (.ldkey k)) :: ps) s = .next t ∧
      (∀ i : Fin 16, t.rk[i] = (keySchedule k)[i]) ∧
      (t.c, t.d) = keyHalvesAfter k 16 ∧ t.c = (pc1 k).extractLsb' 28 28 ∧ t.d = (pc1 k).extractLsb' 0 28 ∧
      t.err = false ∧
      t = { s with rk := t.rk, c := t.c, d := t.d, keyValid := true, phase := .idle, rnd := 0 }) ∧
  (∀ k s ps q, cmdReady s = true → ps.length ≤ 15 → NoReset ps → q.rst = true →
    edges (cmdPort (encode (.ldkey k)) :: (ps ++ [q])) s = .next { State.reset with pending := s.pending })

/-- R175: `ENC` at its accepting edge. -/
def Obligations.EncAcceptanceStartsTheRounds : Prop :=
  ∀ b s, cmdReady s = true →
    (s.keyValid = true → exec (.enc b) s = .next { s with
      l := (ip b).extractLsb' 32 32, r := (ip b).extractLsb' 0 32, decr := false, isDone := false, phase := .crypt,
      rnd := 1 }) ∧
    (s.keyValid = false → exec (.enc b) s = .next { s with err := true, ecode := .noKey })

/-- R176: `DEC` at its accepting edge. -/
def Obligations.DecAcceptanceStartsTheRounds : Prop :=
  ∀ b s, cmdReady s = true →
    (s.keyValid = true → exec (.dec b) s = .next { s with
      l := (ip b).extractLsb' 32 32, r := (ip b).extractLsb' 0 32, decr := true, isDone := false, phase := .crypt,
      rnd := 1 }) ∧
    (s.keyValid = false → exec (.dec b) s = .next { s with err := true, ecode := .noKey })

/-- R177: the round step with `RND = n`, here `n = i + 1`; `RK[17 - n]` is entry `15 - i`. -/
def Obligations.RoundStepRunsOneFeistelRound : Prop :=
  ∀ p s (i j : Fin 16), p.rst = false → s.phase = .crypt → s.rnd.val = i.val + 1 → i.val + j.val = 15 →
    ∃ t, edge p s = .next t ∧
      t.l = s.r ∧ t.r = s.l ^^^ feistelF s.r (if s.decr then s.rk[j] else s.rk[i]) ∧
      (i.val < 15 → t.rnd.val = i.val + 2 ∧ t.phase = .crypt ∧ t.dout = s.dout ∧ t.isDone = s.isDone) ∧
      (i.val = 15 → t.rnd = 0 ∧ t.phase = .idle ∧ t.dout = fp (t.r ++ t.l) ∧ t.isDone = true) ∧
      t = { s with l := t.l, r := t.r, rnd := t.rnd, phase := t.phase, dout := t.dout, isDone := t.isDone }

/-- R178: `ENC` as a whole, on any loaded schedule and on the schedule of a key; a reset before the last round aborts
it. -/
def Obligations.EncComputesTheBlockFunction : Prop :=
  (∀ b s ps, cmdReady s = true → s.keyValid = true → ps.length = 16 → NoReset ps →
    ∃ u t, exec (.enc b) s = .next u ∧ edges ps u = .next t ∧ edges (cmdPort (encode (.enc b)) :: ps) s = .next t ∧
      t.dout = crypt b s.rk false ∧ (∀ k, s.rk = keySchedule k → t.dout = encryptBlock b k) ∧
      (t.l, t.r) = halvesAfter b s.rk false 16 ∧
      t = { s with l := t.l, r := t.r, dout := t.dout, isDone := true, decr := false, phase := .idle, rnd := 0 }) ∧
  (∀ b s ps q, cmdReady s = true → s.keyValid = true → ps.length ≤ 15 → NoReset ps → q.rst = true →
    edges (cmdPort (encode (.enc b)) :: (ps ++ [q])) s = .next { State.reset with pending := s.pending })

/-- R179: `DEC` as a whole, on any loaded schedule and on the schedule of a key; a reset before the last round aborts
it. -/
def Obligations.DecComputesTheBlockFunction : Prop :=
  (∀ b s ps, cmdReady s = true → s.keyValid = true → ps.length = 16 → NoReset ps →
    ∃ u t, exec (.dec b) s = .next u ∧ edges ps u = .next t ∧ edges (cmdPort (encode (.dec b)) :: ps) s = .next t ∧
      t.dout = crypt b s.rk true ∧ (∀ k, s.rk = keySchedule k → t.dout = decryptBlock b k) ∧
      (t.l, t.r) = halvesAfter b s.rk true 16 ∧
      t = { s with l := t.l, r := t.r, dout := t.dout, isDone := true, decr := true, phase := .idle, rnd := 0 }) ∧
  (∀ b s ps q, cmdReady s = true → s.keyValid = true → ps.length ≤ 15 → NoReset ps → q.rst = true →
    edges (cmdPort (encode (.dec b)) :: (ps ++ [q])) s = .next { State.reset with pending := s.pending })

/-- R180: `CLR` zeroes everything derived from key or data; the state is then the reset state; it is not
accepted while busy or halted, where its edge is the one at which nothing is presented. -/
def Obligations.ClrReturnsToTheResetState : Prop :=
  (∀ s, cmdReady s = true → exec .clr s = .next { s with
    l := 0, r := 0, c := 0, d := 0, dout := 0, rk := Vector.replicate 16 0, keyValid := false, isDone := false,
    decr := false }) ∧
  (∀ s, cmdReady s = true → ControlInv s → exec .clr s = .next { State.reset with pending := s.pending }) ∧
  (∀ (imm : BitVec 64) s, cmdReady s = false →
    acceptedAt (cmdPort ((0b100 : BitVec 3) ++ imm)) s = false ∧
    edge (cmdPort ((0b100 : BitVec 3) ++ imm)) s = edge idlePort s)

/-- R181: the reserved opcodes. -/
def Obligations.ReservedOpcodesRaiseRsvdOp : Prop :=
  ∀ i s, i = .rsvd5 ∨ i = .rsvd6 ∨ i = .rsvd7 → cmdReady s = true →
    exec i s = .next { s with err := true, ecode := .rsvdOp }

/-- R182: a block without a schedule. -/
def Obligations.BlockWithoutScheduleRaisesNoKey : Prop :=
  ∀ i b s, i = .enc b ∨ i = .dec b → cmdReady s = true → s.keyValid = false →
    exec i s = .next { s with err := true, ecode := .noKey }

/-! ### Faults -/

/-- R201: the complete list of faults, each at the accepting edge of the offending command; code 3 is never shown. -/
def Obligations.OnlyTheTwoListedFaultsAreRaised : Prop :=
  (∀ p s t, edge p s = .next t → s.err = false → t.err = true → acceptedAt p s = true ∧
    ((t.ecode = .noKey ∧ s.keyValid = false ∧ ∃ b, decodeWord p.cmd = .enc b ∨ decodeWord p.cmd = .dec b) ∨
     (t.ecode = .rsvdOp ∧ (opField p.cmd = 0b101 ∨ opField p.cmd = 0b110 ∨ opField p.cmd = 0b111)))) ∧
  (∀ p s, acceptedAt p s = true → s.keyValid = false →
    (∃ b, decodeWord p.cmd = .enc b ∨ decodeWord p.cmd = .dec b) →
    edge p s = .next { s with err := true, ecode := .noKey }) ∧
  (∀ p s, acceptedAt p s = true → opField p.cmd = 0b101 ∨ opField p.cmd = 0b110 ∨ opField p.cmd = 0b111 →
    edge p s = .next { s with err := true, ecode := .rsvdOp }) ∧
  (∀ s, (outputs s).ecode ≠ 3)

/-- R203: fault entry writes `ERR` and `ECODE` only; from then on no command of any kind is accepted, and no edge without
reset changes anything. -/
def Obligations.FaultEntryHaltsUntilReset : Prop :=
  ∀ p s, faultingAt p s = true →
    ∃ t, edge p s = .next t ∧ t.err = true ∧ t = { s with err := true, ecode := t.ecode } ∧ t.ecode ≠ .none ∧
      cmdReady t = false ∧ (∀ q, acceptedAt q t = false) ∧ ∀ ps, NoReset ps → edges ps t = .next t

/-- R204: from the faulted state (idle, as R43 says) an edge either changes nothing or is a reset, which clears all. -/
def Obligations.OnlyResetLeavesTheFaultedState : Prop :=
  ∀ p s t, ControlInv s → s.err = true → edge p s = .next t →
    (p.rst = true ∧ t = { State.reset with pending := s.pending }) ∨ (p.rst = false ∧ t = s ∧ t.ecode = s.ecode)

/-! ### Registers and flags: who writes them, who reads them -/

/-- The bits of `status[7:0]` and the ports that carry the same bits. -/
def Obligations.StatusRegisterLayout : Prop :=
  ∀ s, (statusOf s).getLsbD 0 = isBusy s ∧ (statusOf s).getLsbD 1 = s.keyValid ∧ (statusOf s).getLsbD 2 = s.isDone ∧
    (statusOf s).getLsbD 3 = s.err ∧ (statusOf s).extractLsb' 4 2 = ecodeBits s.ecode ∧
    (statusOf s).getLsbD 6 = s.decr ∧ (statusOf s).getLsbD 7 = false ∧
    (isBusy s = true ↔ s.phase ≠ .idle) ∧
    outputs s = ⟨decide (s.phase = .idle ∧ s.err = false), isBusy s, s.keyValid, s.isDone, s.dout, s.err,
      ecodeBits s.ecode, statusOf s⟩

/-- R23: `DOUT` is written only at the last step of `ENC` or `DEC`, by `CLR` and by reset (to 0), and drives `dout`. -/
def Obligations.DoutWrittenOnlyByLastRoundClrAndReset : Prop :=
  (∀ p s t, edge p s = .next t → t.dout ≠ s.dout →
    (p.rst = false ∧ s.phase = .crypt ∧ s.rnd = 16 ∧ t.isDone = true ∧ t.phase = .idle) ∨
    (acceptedAt p s = true ∧ decodeWord p.cmd = .clr ∧ t.dout = 0) ∨ (p.rst = true ∧ t.dout = 0)) ∧
  (∀ s, (outputs s).dout = s.dout)

/-- R25: the round-key file is written only by key-generation steps (one register a step, in index order, from the
rotated key halves), `CLR` and reset, and read only by the round steps: `RK[RND]` to encrypt, `RK[17 - RND]` to decrypt.
No port reads it. -/
def Obligations.RoundKeyFileWritersAndReaders : Prop :=
  (∀ p s t, edge p s = .next t → t.rk ≠ s.rk →
    (p.rst = false ∧ s.phase = .keygen ∧ ∃ i : Fin 16, s.rnd.val = i.val + 1 ∧
      (∀ j : Fin 16, j ≠ i → t.rk[j] = s.rk[j]) ∧ t.rk[i] = roundKeyOf (t.c, t.d) ∧
      (i.val < 15 → t.rnd.val = i.val + 2)) ∨
    (acceptedAt p s = true ∧ decodeWord p.cmd = .clr) ∨ p.rst = true) ∧
  (∀ p s t ks, edge p s = .next t →
    (p.rst = false → s.phase = .crypt → ∀ i j : Fin 16, s.rnd.val = i.val + 1 → i.val + j.val = 15 →
      (s.decr = false → ks[i] = s.rk[i]) ∧ (s.decr = true → ks[j] = s.rk[j])) →
    ∃ t', edge p { s with rk := ks } = .next t' ∧ { t' with rk := t.rk } = t) ∧
  (∀ s ks, outputs { s with rk := ks } = outputs s)

/-- R33: `KEY_VALID` after an edge; it decides whether an accepted `ENC` or `DEC` works or faults. -/
def Obligations.KeyValidRule : Prop :=
  (∀ p s t, edge p s = .next t → t.keyValid =
    (if p.rst then false
     else if s.phase = .keygen ∧ s.rnd = 16 then true
     else if acceptedAt p s = true ∧ ((∃ k, decodeWord p.cmd = .ldkey k) ∨ decodeWord p.cmd = .clr) then false
     else s.keyValid)) ∧
  (∀ i b s t, i = .enc b ∨ i = .dec b → cmdReady s = true → exec i s = .next t → t.err = !s.keyValid) ∧
  (∀ s, (outputs s).keyValid = s.keyValid)

/-- R34: `DONE` after an edge; set in the same edge that writes `DOUT`. -/
def Obligations.DoneRule : Prop :=
  (∀ p s t, edge p s = .next t → t.isDone =
    (if p.rst then false
     else if s.phase = .crypt ∧ s.rnd = 16 then true
     else if acceptedAt p s = true ∧
         ((s.keyValid = true ∧ ∃ b, decodeWord p.cmd = .enc b ∨ decodeWord p.cmd = .dec b) ∨ decodeWord p.cmd = .clr)
       then false
     else s.isDone)) ∧
  (∀ p s t, edge p s = .next t → p.rst = false → s.phase = .crypt → s.rnd = 16 → t.dout = fp (t.r ++ t.l)) ∧
  (∀ s, (outputs s).outValid = s.isDone)

/-- R35: `DECR` after an edge; it is the only difference between `ENC` and `DEC` at acceptance. -/
def Obligations.DirectionRule : Prop :=
  (∀ p s t, edge p s = .next t → t.decr =
    (if p.rst then false
     else if acceptedAt p s = true ∧ s.keyValid = true ∧ ∃ b, decodeWord p.cmd = .enc b then false
     else if acceptedAt p s = true ∧ s.keyValid = true ∧ ∃ b, decodeWord p.cmd = .dec b then true
     else if acceptedAt p s = true ∧ decodeWord p.cmd = .clr then false
     else s.decr)) ∧
  (∀ b s t, cmdReady s = true → s.keyValid = true → exec (.enc b) s = .next t →
    exec (.dec b) s = .next { t with decr := true })

/-- R36: `ERR` and `ECODE` after an edge: set together by a fault, cleared only by reset. -/
def Obligations.ErrorFlagsRule : Prop :=
  (∀ p s t, edge p s = .next t →
    (p.rst = true → t.err = false ∧ t.ecode = .none) ∧
    (p.rst = false → t.err = (s.err || faultingAt p s)) ∧
    (p.rst = false → faultingAt p s = false → t.ecode = s.ecode) ∧
    (faultingAt p s = true → s.err = false ∧ t.ecode ≠ .none)) ∧
  (∀ s, (outputs s).err = s.err ∧ (outputs s).ecode = ecodeBits s.ecode) ∧
  ecodeBits .none = 0 ∧ ecodeBits .noKey = 1 ∧ ecodeBits .rsvdOp = 2

/-- R37: no flag, phase or round index depends on a key, a block, a round key or the operand of a command: two cores whose
control parts agree, driven by inputs that differ in the operand only, stay in agreement. -/
def Obligations.ControlIgnoresData : Prop :=
  ∀ p q s s' t, controlOf s = controlOf s' → SameExceptOperand p q → edge p s = .next t →
    ∃ t', edge q s' = .next t' ∧ controlOf t' = controlOf t

/-- The result stays on `dout` while `out_valid = 1`; while a block runs, `out_valid = 0` and `dout` shows what it showed
before. -/
def Obligations.OutputStaysUntilTheNextBlock : Prop :=
  (∀ i b s ps, i = .enc b ∨ i = .dec b → cmdReady s = true → s.keyValid = true → NoReset ps → ps.length ≤ 15 →
    ∃ t, edges (cmdPort (encode i) :: ps) s = .next t ∧ (outputs t).outValid = false ∧ (outputs t).dout = s.dout) ∧
  (∀ p s t, ControlInv s → s.isDone = true → edge p s = .next t →
    (t.isDone = true ∧ t.dout = s.dout) ∨ p.rst = true ∨
    (acceptedAt p s = true ∧ s.keyValid = true ∧ ∃ b, decodeWord p.cmd = .enc b ∨ decodeWord p.cmd = .dec b) ∨
    (acceptedAt p s = true ∧ decodeWord p.cmd = .clr))

/-! ### Invariants -/

/-- The control invariant holds at reset. -/
def Obligations.ControlInvAtReset : Prop := ControlInv State.reset

/-- Every step keeps the control invariant, and from a state that meets it the step never stops. -/
def Obligations.EveryStepKeepsControlInv : Prop :=
  ∀ s, ControlInv s → ∃ t, step s = .next t ∧ ControlInv t

/-- Every step keeps the invariants of R43 relative to what the host has asked for. -/
def Obligations.EveryStepKeepsHistoryInv : Prop :=
  ∀ g s t, HistoryInv g s → step s = .next t → HistoryInv (historyNext (portNow s) s g) t

/-- R43: the invariants in every state reachable from reset, for every sequence of inputs. -/
def Obligations.ReachableStatesMeetTheInvariants : Prop :=
  ∀ ps, ∃ t, edges ps State.reset = .next t ∧ HistoryInv (historyAfter ps State.reset .empty) t

/-- R231: without reset a core with no fault recorded is ready within 16 edges, whatever is presented to the busy core; a
core that records a fault makes no progress. -/
def Obligations.BusyCoreIsReadyWithinSixteenEdges : Prop :=
  (∀ s ps, ControlInv s → NoFaultRecorded s → ps.length = 16 → NoReset ps →
    ∃ n, n ≤ 16 ∧ ∃ t, edges (ps.take n) s = .next t ∧ t.phase = .idle ∧ cmdReady t = true) ∧
  (∀ s ps, ControlInv s → s.err = true → NoReset ps → edges ps s = .next s)

/-! ### Whole commands and programs of the host -/

/-- The two levels agree on one command, in its reference timing: after its edges (whatever is presented meanwhile) the
state is the big-step effect and idle, and at every edge before the last the core is busy. -/
def Obligations.EveryCommandRunsItsWholeEffect : Prop :=
  ∀ i s ps, s.phase = .idle → ps.length + 1 = commandEdges i s → NoReset ps →
    edges (cmdPort (encode i) :: ps) s = .next (commandEffect i s) ∧ (commandEffect i s).phase = .idle ∧
    ∀ n, n < ps.length → ∃ t, edges (cmdPort (encode i) :: ps.take n) s = .next t ∧ isBusy t = true

/-- R184: the effect of a command sequence is the composition of the big-step effects, for any host that follows the
handshake, whatever it presents meanwhile; at every point where `PHASE = IDLE` the state is that composition over the
commands accepted so far; after a fault no command has any effect. -/
def Obligations.CommandSequenceComposes : Prop :=
  (∀ prog s, s.phase = .idle → FollowsHandshake prog s →
    edges (programInputs prog) s = .next (commandsEffect (prog.map (fun c => c.1)) s)) ∧
  (∀ ps s t, s.phase = .idle → NoReset ps → edges ps s = .next t → t.phase = .idle →
    t = commandsEffect (acceptedBy ps s) s) ∧
  (∀ is s, s.err = true → commandsEffect is s = s)

/-- The second half of R185: `LDKEY k ; ENC b ; (c = dout) ; DEC c` ends with `DOUT = b`. -/
def Obligations.DecryptAfterEncryptReturnsTheBlock : Prop :=
  ∀ k b s, cmdReady s = true → ∃ s1 s2 c,
    runScript [.command (.ldkey k), .command (.enc b), .read] s = .finished s1 [c] ∧ c = s1.dout ∧
    runScript [.command (.dec c), .read] s1 = .finished s2 [b] ∧ s2.dout = b

/-- R78: the pseudo-instructions yield the transformed blocks in order and leave the reset state. -/
def Obligations.PseudoInstructionsTransformEveryBlock : Prop :=
  ∀ k bs s, ControlInv s → cmdReady s = true →
    runScript (encryptCall k bs) s =
      .finished { State.reset with pending := s.pending } (bs.map (fun b => encryptBlock b k)) ∧
    runScript (decryptCall k bs) s =
      .finished { State.reset with pending := s.pending } (bs.map (fun b => decryptBlock b k))

/-! ### Encoding -/

/-- R76: the decoder and the encoder agree; three bits select the command. -/
def Obligations.EncodeThenDecodeIsIdentity : Prop :=
  (∀ i : Instr, i.wf = true → decodeWord (encode i) = i) ∧
  (∀ w, encode (decodeWord w) = opField w ++ (decodeWord w).operand) ∧
  (∀ w v, opField w = opField v → (decodeWord w).mnemonic = (decodeWord v).mnemonic)

/-- R71: every word selects exactly one row of the opcode map, the row of the command it decodes to. -/
def Obligations.EveryWordSelectsExactlyOneRow : Prop :=
  ∀ w, (opcodeRows.filter (fun row => row.selects w)).map (fun row => row.mnemonic) = [(decodeWord w).mnemonic]

/-- R72 and R73: the operand is used exactly as presented, and ignored for `NOP`, `CLR` (and the reserved opcodes). -/
def Obligations.OperandIsUsedAsPresented : Prop :=
  ∀ v : BitVec 64,
    decodeWord ((0b001 : BitVec 3) ++ v) = .ldkey v ∧ decodeWord ((0b010 : BitVec 3) ++ v) = .enc v ∧
    decodeWord ((0b011 : BitVec 3) ++ v) = .dec v ∧ decodeWord ((0b000 : BitVec 3) ++ v) = .nop ∧
    decodeWord ((0b100 : BitVec 3) ++ v) = .clr ∧ decodeWord ((0b101 : BitVec 3) ++ v) = .rsvd5 ∧
    decodeWord ((0b110 : BitVec 3) ++ v) = .rsvd6 ∧ decodeWord ((0b111 : BitVec 3) ++ v) = .rsvd7 ∧
    immField (encode .nop) = 0 ∧ immField (encode .clr) = 0

/-- Words written out in the spec decode to the commands it names; a number wider than the port is rejected. -/
def Obligations.SpecWordsDecode : Prop :=
  decodeRaw 0x00000000000000000 = .ok .nop ∧
  decodeRaw 0x1133457799BBCDFF1 = .ok (.ldkey 0x133457799BBCDFF1) ∧
  decodeRaw 0x20123456789ABCDEF = .ok (.enc 0x0123456789ABCDEF) ∧
  decodeRaw 0x385E813540F0AB405 = .ok (.dec 0x85E813540F0AB405) ∧
  decodeRaw 0x4DEADBEEF00000001 = .ok .clr ∧
  decodeRaw 0x5000000000000000A = .ok .rsvd5 ∧
  decodeRaw 0x60000000000000000 = .ok .rsvd6 ∧
  decodeRaw 0x7FFFFFFFFFFFFFFFF = .ok .rsvd7 ∧
  decodeRaw 0x80000000000000000 = .error .tooWide

/-! ### The functions the commands compute -/

/-- R90: what `PERMUTE` does, for any table, in both numberings, with its corner cases. -/
def Obligations.PermuteReadsItsTable : Prop :=
  ∀ (n m : Nat) (t : List Nat), t.length = m → (∀ e ∈ t, 1 ≤ e ∧ e ≤ n) →
    (∀ (v : BitVec n) (j : Nat) (hj : j < t.length),
      dbit (permute m t v) (j + 1) = dbit v t[j] ∧
      (permute m t v).getLsbD (m - (j + 1)) = v.getLsbD (n - t[j])) ∧
    permute m t (0 : BitVec n) = 0 ∧ permute m t (BitVec.allOnes n) = BitVec.allOnes m

/-- R92: `FP` and `IP` read their tables and invert each other, as functions and entry by entry. -/
def Obligations.FinalPermutationInvertsInitial : Prop :=
  StageReads fp fpTable ∧ StageReads ip ipTable ∧ (∀ b, fp (ip b) = b) ∧ (∀ b, ip (fp b) = b) ∧
  tableInverts 64 ipTable fpTable = true ∧ tableInverts 64 fpTable ipTable = true

/-- R98: every stage is linear over XOR and commutes with complement; which are bijective, injective, surjective. -/
def Obligations.StagesAreLinear : Prop :=
  XorLinear ip ∧ XorLinear fp ∧ XorLinear expand ∧ XorLinear pPerm ∧ XorLinear pc1 ∧ XorLinear pc2 ∧
  Function.Bijective ip ∧ Function.Bijective fp ∧ Function.Bijective pPerm ∧ Function.Injective expand ∧
  Function.Surjective pc1 ∧ ¬ Function.Injective pc1 ∧ Function.Surjective pc2 ∧ ¬ Function.Injective pc2

/-- R119 with the indexing of R110: group `j + 1` of the input is DES bits `6j + 1` to `6j + 6`; its first and last bit
are the row, its middle bits the column; its output is nibble `j + 1` of the result; the flat form reads the same. -/
def Obligations.SubstitutionReadsRowAndColumn : Prop :=
  (∀ (x : RoundKey) (j : Fin 8) (row : Fin 4) (col : Fin 16),
    row.val = 2 * (dbit x (6 * j.val + 1)).toNat + (dbit x (6 * j.val + 6)).toNat →
    col.val = 8 * (dbit x (6 * j.val + 2)).toNat + 4 * (dbit x (6 * j.val + 3)).toNat +
      2 * (dbit x (6 * j.val + 4)).toNat + (dbit x (6 * j.val + 5)).toNat →
    (sbox x).extractLsb' (28 - 4 * j.val) 4 = sboxMatrices[j][row][col]) ∧
  (∀ (j : Fin 8) (a b : Fin 2) (c : Fin 16) (row : Fin 4), row.val = 2 * a.val + b.val →
    flatRead j (BitVec.ofNat 6 (32 * a.val + 2 * c.val + b.val)) = sboxMatrices[j][row][c])

/-- R120: every row of every box is a permutation, each box takes every value four times, the layer is not linear. -/
def Obligations.SboxRowsArePermutations : Prop :=
  (∀ j : Fin 8, ∀ row : Fin 4, (sboxMatrices[j][row]).toList.Nodup) ∧
  (∀ j : Fin 8, ∀ y : BitVec 4, ((List.finRange 64).filter (fun g => romRead j (BitVec.ofFin g) == y)).length = 4) ∧
  (∀ j : Fin 8, ∃ a b, romRead j (a ^^^ b) ≠ romRead j a ^^^ romRead j b) ∧
  sbox 0 ≠ 0

/-- R130 and R131: the round function as `P` of the substitution of `E(r) ^ k`, which is all it depends on; one round and
its inverse. -/
def Obligations.RoundIsInvertible : Prop :=
  (∀ r k, feistelF r k = pPerm (sbox (expand r ^^^ k))) ∧
  (∀ r r' k k', expand r ^^^ k = expand r' ^^^ k' → feistelF r k = feistelF r' k') ∧
  ∀ l r k, feistelRound (l, r) k = (r, l ^^^ feistelF r k) ∧
    feistelRoundInv (feistelRound (l, r) k) k = (l, r) ∧ feistelRound (feistelRoundInv (l, r) k) k = (l, r)

/-- R138: the round trip, for every block and every sequence of sixteen round keys. -/
def Obligations.DecryptionInvertsEncryption : Prop :=
  ∀ (b : Block) (ks : Schedule), crypt (crypt b ks false) ks true = b ∧ crypt (crypt b ks true) ks false = b

/-- R139: complementing block and key complements the result. -/
def Obligations.ComplementationLaw : Prop := ∀ b k, encryptBlock (~~~b) (~~~k) = ~~~(encryptBlock b k)

/-- R150: `ROTL28` by 1 and by 2, as slices and in DES numbering. -/
def Obligations.RotationStaysWithinTwentyEightBits : Prop :=
  ∀ v : KeyHalf, rotl28 v 1 = v.extractLsb' 0 27 ++ v.extractLsb' 27 1 ∧
    rotl28 v 2 = v.extractLsb' 0 26 ++ v.extractLsb' 26 2 ∧
    ∀ s i, s = 1 ∨ s = 2 → 1 ≤ i → i ≤ 28 → dbit (rotl28 v s) i = dbit v ((i - 1 + s) % 28 + 1)

/-- R152: the recurrence of the key halves, the cumulative rotations, and the return after sixteen rounds. -/
def Obligations.KeyHalvesReturnAfterSixteenRounds : Prop :=
  ∀ k, keyHalvesAfter k 0 = ((pc1 k).extractLsb' 28 28, (pc1 k).extractLsb' 0 28) ∧
    (∀ i : Fin 16, keyHalvesAfter k (i.val + 1) = rotateHalves (keyHalvesAfter k i.val) shiftTable[i]) ∧
    (∀ (n : Fin 16) (e : Nat), [1, 2, 4, 6, 8, 10, 12, 14, 15, 17, 19, 21, 23, 25, 27, 28][n.val]? = some e →
      keyHalvesAfter k (n.val + 1) = ((keyHalvesAfter k 0).1.rotateLeft e, (keyHalvesAfter k 0).2.rotateLeft e)) ∧
    keyHalvesAfter k 16 = keyHalvesAfter k 0

/-- R154: the eight parity bits of the key have no effect on the schedule. -/
def Obligations.ParityBitsDoNotMatter : Prop :=
  ∀ k m : Key, m &&& 0xFEFEFEFEFEFEFEFE = 0 → keySchedule (k ^^^ m) = keySchedule k

/-- R155: degenerate schedules. -/
def Obligations.DegenerateSchedulesAreConstant : Prop :=
  (∀ k, cOperand k = 0 ∨ cOperand k = BitVec.allOnes 28 → dOperand k = 0 ∨ dOperand k = BitVec.allOnes 28 →
    (∀ i : Fin 16, (keySchedule k)[i] = (keySchedule k)[0]) ∧ ∀ b, encryptBlock b k = decryptBlock b k) ∧
  keySchedule 0x0101010101010101 = Vector.replicate 16 0 ∧
  keySchedule 0x0000000000000000 = Vector.replicate 16 0 ∧
  keySchedule 0xFEFEFEFEFEFEFEFE = Vector.replicate 16 0xFFFFFFFFFFFF ∧
  keySchedule 0xFFFFFFFFFFFFFFFF = Vector.replicate 16 0xFFFFFFFFFFFF ∧
  keySchedule 0x1F1F1F1F0E0E0E0E = Vector.replicate 16 0x000000FFFFFF ∧
  keySchedule 0xE0E0E0E0F1F1F1F1 = Vector.replicate 16 0xFFFFFF000000

/-- R157: each round key is a selection of 48 distinct effective key bits, linear in the key. -/
def Obligations.RoundKeysSelectKeyBits : Prop :=
  ∀ n : Fin 16,
    (∃ sel : List Nat, sel.length = 48 ∧ sel.Nodup ∧ (∀ e ∈ sel, 1 ≤ e ∧ e ≤ 64 ∧ e % 8 ≠ 0) ∧
      ∀ k, (keySchedule k)[n] = permute 48 sel k) ∧
    (∀ a b, (keySchedule (a ^^^ b))[n] = (keySchedule a)[n] ^^^ (keySchedule b)[n]) ∧
    (∀ k, (keySchedule (~~~k))[n] = ~~~((keySchedule k)[n]))

/-! ### The stages through their tables, and commands given to an unready core -/

/-- R91 and R93 to R96: each stage reads its table, bit by bit in DES numbering, with what each rule says of its table:
the closed forms of `IP_TABLE` and `E_TABLE`, `IP` and `P` bijections by a permutation of `1..32`, the key bits `PC1`
keeps, and the bits of `C` and `D` that `PC2` keeps. -/
def Obligations.StagesReadTheirTables : Prop :=
  StageReads ip ipTable ∧ StageReads expand eTable ∧ StageReads pPerm pTable ∧ StageReads pc1 pc1Table ∧
  StageReads pc2 pc2Table ∧
  (∀ (row start col : Nat), [58, 60, 62, 64, 57, 59, 61, 63][row]? = some start → col < 8 →
    ipTable[8 * row + col]? = some (start - 8 * col)) ∧
  (∀ g t : Nat, g < 8 → t < 6 → eTable[6 * g + t]? = some ((4 * g + 31 + t) % 32 + 1)) ∧
  Function.Bijective ip ∧ Function.Bijective pPerm ∧ (∀ i : Nat, 1 ≤ i → i ≤ 32 → pTable.count i = 1) ∧
  (∀ i : Nat, 1 ≤ i → i ≤ 64 → pc1Table.count i = if i % 8 = 0 then 0 else 1) ∧
  (∀ b, ip b = leftOperand b ++ rightOperand b) ∧ (∀ k, pc1 k = cOperand k ++ dOperand k) ∧
  (∀ e ∈ pc2Table.take 24, 1 ≤ e ∧ e ≤ 28) ∧ (∀ e ∈ pc2Table.drop 24, 29 ≤ e ∧ e ≤ 56) ∧
  (∀ i : Nat, 1 ≤ i → i ≤ 56 → pc2Table.count i = if i ∈ [9, 18, 22, 25, 35, 38, 43, 54] then 0 else 1)

/-- The model's reading of a command given to a core that is not ready (log entry 5, DEDUCED): `exec` answers the state
unchanged, for every command. A busy core's own step at that edge is in `edge`. -/
def Obligations.UnreadyCoreExecutesNothing : Prop :=
  (∀ i s, cmdReady s = false → exec i s = .next s) ∧
  (∀ p s, p.rst = false → cmdReady s = false → s.phase = .idle → edge p s = exec (decodeWord p.cmd) s)
end

