-- ==== Sys2Proof/Laws/State.lean ====
section
/-! SUPPORT. One lemma per field per state update, true by unfolding the update once, so that no later proof unfolds a
record update. -/

namespace Sys2Proof.Laws

open Sys2Proof.Machine

@[simp] theorem writeRk_l (s : State) (i : Fin 16) (v : RoundKey) : (writeRk s i v).l = s.l := rfl
@[simp] theorem writeRk_r (s : State) (i : Fin 16) (v : RoundKey) : (writeRk s i v).r = s.r := rfl
@[simp] theorem writeRk_c (s : State) (i : Fin 16) (v : RoundKey) : (writeRk s i v).c = s.c := rfl
@[simp] theorem writeRk_d (s : State) (i : Fin 16) (v : RoundKey) : (writeRk s i v).d = s.d := rfl
@[simp] theorem writeRk_rk (s : State) (i : Fin 16) (v : RoundKey) : (writeRk s i v).rk = s.rk.set i.val v := rfl
@[simp] theorem writeRk_dout (s : State) (i : Fin 16) (v : RoundKey) : (writeRk s i v).dout = s.dout := rfl
@[simp] theorem writeRk_rnd (s : State) (i : Fin 16) (v : RoundKey) : (writeRk s i v).rnd = s.rnd := rfl
@[simp] theorem writeRk_phase (s : State) (i : Fin 16) (v : RoundKey) : (writeRk s i v).phase = s.phase := rfl
@[simp] theorem writeRk_decr (s : State) (i : Fin 16) (v : RoundKey) : (writeRk s i v).decr = s.decr := rfl
@[simp] theorem writeRk_keyValid (s : State) (i : Fin 16) (v : RoundKey) : (writeRk s i v).keyValid = s.keyValid := rfl
@[simp] theorem writeRk_isDone (s : State) (i : Fin 16) (v : RoundKey) : (writeRk s i v).isDone = s.isDone := rfl
@[simp] theorem writeRk_err (s : State) (i : Fin 16) (v : RoundKey) : (writeRk s i v).err = s.err := rfl
@[simp] theorem writeRk_ecode (s : State) (i : Fin 16) (v : RoundKey) : (writeRk s i v).ecode = s.ecode := rfl
@[simp] theorem writeRk_pending (s : State) (i : Fin 16) (v : RoundKey) : (writeRk s i v).pending = s.pending := rfl

@[simp] theorem raiseFault_l (code : ECode) (s : State) : (raiseFault code s).l = s.l := rfl
@[simp] theorem raiseFault_r (code : ECode) (s : State) : (raiseFault code s).r = s.r := rfl
@[simp] theorem raiseFault_c (code : ECode) (s : State) : (raiseFault code s).c = s.c := rfl
@[simp] theorem raiseFault_d (code : ECode) (s : State) : (raiseFault code s).d = s.d := rfl
@[simp] theorem raiseFault_rk (code : ECode) (s : State) : (raiseFault code s).rk = s.rk := rfl
@[simp] theorem raiseFault_dout (code : ECode) (s : State) : (raiseFault code s).dout = s.dout := rfl
@[simp] theorem raiseFault_rnd (code : ECode) (s : State) : (raiseFault code s).rnd = s.rnd := rfl
@[simp] theorem raiseFault_phase (code : ECode) (s : State) : (raiseFault code s).phase = s.phase := rfl
@[simp] theorem raiseFault_decr (code : ECode) (s : State) : (raiseFault code s).decr = s.decr := rfl
@[simp] theorem raiseFault_keyValid (code : ECode) (s : State) : (raiseFault code s).keyValid = s.keyValid := rfl
@[simp] theorem raiseFault_isDone (code : ECode) (s : State) : (raiseFault code s).isDone = s.isDone := rfl
@[simp] theorem raiseFault_err (code : ECode) (s : State) : (raiseFault code s).err = true := rfl
@[simp] theorem raiseFault_ecode (code : ECode) (s : State) : (raiseFault code s).ecode = code := rfl
@[simp] theorem raiseFault_pending (code : ECode) (s : State) : (raiseFault code s).pending = s.pending := rfl

@[simp] theorem startKeygen_l (k : Key) (s : State) : (startKeygen k s).l = s.l := rfl
@[simp] theorem startKeygen_r (k : Key) (s : State) : (startKeygen k s).r = s.r := rfl
@[simp] theorem startKeygen_c (k : Key) (s : State) : (startKeygen k s).c = cOperand k := rfl
@[simp] theorem startKeygen_d (k : Key) (s : State) : (startKeygen k s).d = dOperand k := rfl
@[simp] theorem startKeygen_rk (k : Key) (s : State) : (startKeygen k s).rk = s.rk := rfl
@[simp] theorem startKeygen_dout (k : Key) (s : State) : (startKeygen k s).dout = s.dout := rfl
@[simp] theorem startKeygen_rnd (k : Key) (s : State) : (startKeygen k s).rnd = 1 := rfl
@[simp] theorem startKeygen_phase (k : Key) (s : State) : (startKeygen k s).phase = .keygen := rfl
@[simp] theorem startKeygen_decr (k : Key) (s : State) : (startKeygen k s).decr = s.decr := rfl
@[simp] theorem startKeygen_keyValid (k : Key) (s : State) : (startKeygen k s).keyValid = false := rfl
@[simp] theorem startKeygen_isDone (k : Key) (s : State) : (startKeygen k s).isDone = s.isDone := rfl
@[simp] theorem startKeygen_err (k : Key) (s : State) : (startKeygen k s).err = s.err := rfl
@[simp] theorem startKeygen_ecode (k : Key) (s : State) : (startKeygen k s).ecode = s.ecode := rfl
@[simp] theorem startKeygen_pending (k : Key) (s : State) : (startKeygen k s).pending = s.pending := rfl

@[simp] theorem startCrypt_l (w : Bool) (b : Block) (s : State) : (startCrypt w b s).l = leftOperand b := rfl
@[simp] theorem startCrypt_r (w : Bool) (b : Block) (s : State) : (startCrypt w b s).r = rightOperand b := rfl
@[simp] theorem startCrypt_c (w : Bool) (b : Block) (s : State) : (startCrypt w b s).c = s.c := rfl
@[simp] theorem startCrypt_d (w : Bool) (b : Block) (s : State) : (startCrypt w b s).d = s.d := rfl
@[simp] theorem startCrypt_rk (w : Bool) (b : Block) (s : State) : (startCrypt w b s).rk = s.rk := rfl
@[simp] theorem startCrypt_dout (w : Bool) (b : Block) (s : State) : (startCrypt w b s).dout = s.dout := rfl
@[simp] theorem startCrypt_rnd (w : Bool) (b : Block) (s : State) : (startCrypt w b s).rnd = 1 := rfl
@[simp] theorem startCrypt_phase (w : Bool) (b : Block) (s : State) : (startCrypt w b s).phase = .crypt := rfl
@[simp] theorem startCrypt_decr (w : Bool) (b : Block) (s : State) : (startCrypt w b s).decr = w := rfl
@[simp] theorem startCrypt_keyValid (w : Bool) (b : Block) (s : State) : (startCrypt w b s).keyValid = s.keyValid := rfl
@[simp] theorem startCrypt_isDone (w : Bool) (b : Block) (s : State) : (startCrypt w b s).isDone = false := rfl
@[simp] theorem startCrypt_err (w : Bool) (b : Block) (s : State) : (startCrypt w b s).err = s.err := rfl
@[simp] theorem startCrypt_ecode (w : Bool) (b : Block) (s : State) : (startCrypt w b s).ecode = s.ecode := rfl
@[simp] theorem startCrypt_pending (w : Bool) (b : Block) (s : State) : (startCrypt w b s).pending = s.pending := rfl

@[simp] theorem clearData_l (s : State) : (clearData s).l = 0 := rfl
@[simp] theorem clearData_r (s : State) : (clearData s).r = 0 := rfl
@[simp] theorem clearData_c (s : State) : (clearData s).c = 0 := rfl
@[simp] theorem clearData_d (s : State) : (clearData s).d = 0 := rfl
@[simp] theorem clearData_rk (s : State) : (clearData s).rk = Vector.replicate 16 0 := rfl
@[simp] theorem clearData_dout (s : State) : (clearData s).dout = 0 := rfl
@[simp] theorem clearData_rnd (s : State) : (clearData s).rnd = s.rnd := rfl
@[simp] theorem clearData_phase (s : State) : (clearData s).phase = s.phase := rfl
@[simp] theorem clearData_decr (s : State) : (clearData s).decr = false := rfl
@[simp] theorem clearData_keyValid (s : State) : (clearData s).keyValid = false := rfl
@[simp] theorem clearData_isDone (s : State) : (clearData s).isDone = false := rfl
@[simp] theorem clearData_err (s : State) : (clearData s).err = s.err := rfl
@[simp] theorem clearData_ecode (s : State) : (clearData s).ecode = s.ecode := rfl
@[simp] theorem clearData_pending (s : State) : (clearData s).pending = s.pending := rfl

@[simp] theorem resetRegs_l (s : State) : (resetRegs s).l = 0 := rfl
@[simp] theorem resetRegs_r (s : State) : (resetRegs s).r = 0 := rfl
@[simp] theorem resetRegs_c (s : State) : (resetRegs s).c = 0 := rfl
@[simp] theorem resetRegs_d (s : State) : (resetRegs s).d = 0 := rfl
@[simp] theorem resetRegs_rk (s : State) : (resetRegs s).rk = Vector.replicate 16 0 := rfl
@[simp] theorem resetRegs_dout (s : State) : (resetRegs s).dout = 0 := rfl
@[simp] theorem resetRegs_rnd (s : State) : (resetRegs s).rnd = 0 := rfl
@[simp] theorem resetRegs_phase (s : State) : (resetRegs s).phase = .idle := rfl
@[simp] theorem resetRegs_decr (s : State) : (resetRegs s).decr = false := rfl
@[simp] theorem resetRegs_keyValid (s : State) : (resetRegs s).keyValid = false := rfl
@[simp] theorem resetRegs_isDone (s : State) : (resetRegs s).isDone = false := rfl
@[simp] theorem resetRegs_err (s : State) : (resetRegs s).err = false := rfl
@[simp] theorem resetRegs_ecode (s : State) : (resetRegs s).ecode = .none := rfl
@[simp] theorem resetRegs_pending (s : State) : (resetRegs s).pending = s.pending := rfl

@[simp] theorem dropPort_l (s : State) : (dropPort s).l = s.l := rfl
@[simp] theorem dropPort_r (s : State) : (dropPort s).r = s.r := rfl
@[simp] theorem dropPort_c (s : State) : (dropPort s).c = s.c := rfl
@[simp] theorem dropPort_d (s : State) : (dropPort s).d = s.d := rfl
@[simp] theorem dropPort_rk (s : State) : (dropPort s).rk = s.rk := rfl
@[simp] theorem dropPort_dout (s : State) : (dropPort s).dout = s.dout := rfl
@[simp] theorem dropPort_rnd (s : State) : (dropPort s).rnd = s.rnd := rfl
@[simp] theorem dropPort_phase (s : State) : (dropPort s).phase = s.phase := rfl
@[simp] theorem dropPort_decr (s : State) : (dropPort s).decr = s.decr := rfl
@[simp] theorem dropPort_keyValid (s : State) : (dropPort s).keyValid = s.keyValid := rfl
@[simp] theorem dropPort_isDone (s : State) : (dropPort s).isDone = s.isDone := rfl
@[simp] theorem dropPort_err (s : State) : (dropPort s).err = s.err := rfl
@[simp] theorem dropPort_ecode (s : State) : (dropPort s).ecode = s.ecode := rfl
@[simp] theorem dropPort_pending (s : State) : (dropPort s).pending = s.pending.tail := rfl

@[simp] theorem presentNext_l (w : CmdWord) (s : State) : (presentNext w s).l = s.l := rfl
@[simp] theorem presentNext_r (w : CmdWord) (s : State) : (presentNext w s).r = s.r := rfl
@[simp] theorem presentNext_c (w : CmdWord) (s : State) : (presentNext w s).c = s.c := rfl
@[simp] theorem presentNext_d (w : CmdWord) (s : State) : (presentNext w s).d = s.d := rfl
@[simp] theorem presentNext_rk (w : CmdWord) (s : State) : (presentNext w s).rk = s.rk := rfl
@[simp] theorem presentNext_dout (w : CmdWord) (s : State) : (presentNext w s).dout = s.dout := rfl
@[simp] theorem presentNext_rnd (w : CmdWord) (s : State) : (presentNext w s).rnd = 0 := rfl
@[simp] theorem presentNext_phase (w : CmdWord) (s : State) : (presentNext w s).phase = .idle := rfl
@[simp] theorem presentNext_decr (w : CmdWord) (s : State) : (presentNext w s).decr = s.decr := rfl
@[simp] theorem presentNext_keyValid (w : CmdWord) (s : State) : (presentNext w s).keyValid = s.keyValid := rfl
@[simp] theorem presentNext_isDone (w : CmdWord) (s : State) : (presentNext w s).isDone = s.isDone := rfl
@[simp] theorem presentNext_err (w : CmdWord) (s : State) : (presentNext w s).err = false := rfl
@[simp] theorem presentNext_ecode (w : CmdWord) (s : State) : (presentNext w s).ecode = .none := rfl
@[simp] theorem presentNext_pending (w : CmdWord) (s : State) : (presentNext w s).pending = cmdPort w :: s.pending := rfl

@[simp] theorem loadKeyWhole_l (k : Key) (s : State) : (loadKeyWhole k s).l = s.l := rfl
@[simp] theorem loadKeyWhole_r (k : Key) (s : State) : (loadKeyWhole k s).r = s.r := rfl
@[simp] theorem loadKeyWhole_c (k : Key) (s : State) : (loadKeyWhole k s).c = cOperand k := rfl
@[simp] theorem loadKeyWhole_d (k : Key) (s : State) : (loadKeyWhole k s).d = dOperand k := rfl
@[simp] theorem loadKeyWhole_rk (k : Key) (s : State) : (loadKeyWhole k s).rk = keySchedule k := rfl
@[simp] theorem loadKeyWhole_dout (k : Key) (s : State) : (loadKeyWhole k s).dout = s.dout := rfl
@[simp] theorem loadKeyWhole_rnd (k : Key) (s : State) : (loadKeyWhole k s).rnd = 0 := rfl
@[simp] theorem loadKeyWhole_phase (k : Key) (s : State) : (loadKeyWhole k s).phase = .idle := rfl
@[simp] theorem loadKeyWhole_decr (k : Key) (s : State) : (loadKeyWhole k s).decr = s.decr := rfl
@[simp] theorem loadKeyWhole_keyValid (k : Key) (s : State) : (loadKeyWhole k s).keyValid = true := rfl
@[simp] theorem loadKeyWhole_isDone (k : Key) (s : State) : (loadKeyWhole k s).isDone = s.isDone := rfl
@[simp] theorem loadKeyWhole_err (k : Key) (s : State) : (loadKeyWhole k s).err = s.err := rfl
@[simp] theorem loadKeyWhole_ecode (k : Key) (s : State) : (loadKeyWhole k s).ecode = s.ecode := rfl
@[simp] theorem loadKeyWhole_pending (k : Key) (s : State) : (loadKeyWhole k s).pending = s.pending := rfl

@[simp] theorem keygenAt_l (i : Fin 16) (s : State) : (keygenAt i s).l = s.l := by
  cases h : isLastRound i <;> simp [keygenAt, h, writeRk, rotateHalves]
@[simp] theorem keygenAt_r (i : Fin 16) (s : State) : (keygenAt i s).r = s.r := by
  cases h : isLastRound i <;> simp [keygenAt, h, writeRk, rotateHalves]
@[simp] theorem keygenAt_c (i : Fin 16) (s : State) : (keygenAt i s).c = rotl28 s.c shiftTable[i] := by
  cases h : isLastRound i <;> simp [keygenAt, h, writeRk, rotateHalves]
@[simp] theorem keygenAt_d (i : Fin 16) (s : State) : (keygenAt i s).d = rotl28 s.d shiftTable[i] := by
  cases h : isLastRound i <;> simp [keygenAt, h, writeRk, rotateHalves]
@[simp] theorem keygenAt_rk (i : Fin 16) (s : State) : (keygenAt i s).rk = s.rk.set i.val (roundKeyOf (rotateHalves (s.c, s.d) shiftTable[i])) := by
  cases h : isLastRound i <;> simp [keygenAt, h, writeRk, rotateHalves]
@[simp] theorem keygenAt_dout (i : Fin 16) (s : State) : (keygenAt i s).dout = s.dout := by
  cases h : isLastRound i <;> simp [keygenAt, h, writeRk, rotateHalves]
@[simp] theorem keygenAt_rnd (i : Fin 16) (s : State) : (keygenAt i s).rnd = nextRnd i := by
  cases h : isLastRound i <;> simp [keygenAt, h, writeRk, rotateHalves]
@[simp] theorem keygenAt_phase (i : Fin 16) (s : State) : (keygenAt i s).phase = if isLastRound i then .idle else s.phase := by
  cases h : isLastRound i <;> simp [keygenAt, h, writeRk, rotateHalves]
@[simp] theorem keygenAt_decr (i : Fin 16) (s : State) : (keygenAt i s).decr = s.decr := by
  cases h : isLastRound i <;> simp [keygenAt, h, writeRk, rotateHalves]
@[simp] theorem keygenAt_keyValid (i : Fin 16) (s : State) : (keygenAt i s).keyValid = (isLastRound i || s.keyValid) := by
  cases h : isLastRound i <;> simp [keygenAt, h, writeRk, rotateHalves]
@[simp] theorem keygenAt_isDone (i : Fin 16) (s : State) : (keygenAt i s).isDone = s.isDone := by
  cases h : isLastRound i <;> simp [keygenAt, h, writeRk, rotateHalves]
@[simp] theorem keygenAt_err (i : Fin 16) (s : State) : (keygenAt i s).err = s.err := by
  cases h : isLastRound i <;> simp [keygenAt, h, writeRk, rotateHalves]
@[simp] theorem keygenAt_ecode (i : Fin 16) (s : State) : (keygenAt i s).ecode = s.ecode := by
  cases h : isLastRound i <;> simp [keygenAt, h, writeRk, rotateHalves]
@[simp] theorem keygenAt_pending (i : Fin 16) (s : State) : (keygenAt i s).pending = s.pending := by
  cases h : isLastRound i <;> simp [keygenAt, h, writeRk, rotateHalves]

@[simp] theorem roundAt_l (i : Fin 16) (s : State) : (roundAt i s).l = s.r := by
  cases h : isLastRound i <;> simp [roundAt, h, feistelRound]
@[simp] theorem roundAt_r (i : Fin 16) (s : State) : (roundAt i s).r = s.l ^^^ feistelF s.r (roundKeyAt s.rk s.decr i) := by
  cases h : isLastRound i <;> simp [roundAt, h, feistelRound]
@[simp] theorem roundAt_c (i : Fin 16) (s : State) : (roundAt i s).c = s.c := by
  cases h : isLastRound i <;> simp [roundAt, h, feistelRound]
@[simp] theorem roundAt_d (i : Fin 16) (s : State) : (roundAt i s).d = s.d := by
  cases h : isLastRound i <;> simp [roundAt, h, feistelRound]
@[simp] theorem roundAt_rk (i : Fin 16) (s : State) : (roundAt i s).rk = s.rk := by
  cases h : isLastRound i <;> simp [roundAt, h, feistelRound]
@[simp] theorem roundAt_dout (i : Fin 16) (s : State) : (roundAt i s).dout = if isLastRound i then outputOf (feistelRound (s.l, s.r) (roundKeyAt s.rk s.decr i)) else s.dout := by
  cases h : isLastRound i <;> simp [roundAt, h, feistelRound]
@[simp] theorem roundAt_rnd (i : Fin 16) (s : State) : (roundAt i s).rnd = nextRnd i := by
  cases h : isLastRound i <;> simp [roundAt, h, feistelRound]
@[simp] theorem roundAt_phase (i : Fin 16) (s : State) : (roundAt i s).phase = if isLastRound i then .idle else s.phase := by
  cases h : isLastRound i <;> simp [roundAt, h, feistelRound]
@[simp] theorem roundAt_decr (i : Fin 16) (s : State) : (roundAt i s).decr = s.decr := by
  cases h : isLastRound i <;> simp [roundAt, h, feistelRound]
@[simp] theorem roundAt_keyValid (i : Fin 16) (s : State) : (roundAt i s).keyValid = s.keyValid := by
  cases h : isLastRound i <;> simp [roundAt, h, feistelRound]
@[simp] theorem roundAt_isDone (i : Fin 16) (s : State) : (roundAt i s).isDone = (isLastRound i || s.isDone) := by
  cases h : isLastRound i <;> simp [roundAt, h, feistelRound]
@[simp] theorem roundAt_err (i : Fin 16) (s : State) : (roundAt i s).err = s.err := by
  cases h : isLastRound i <;> simp [roundAt, h, feistelRound]
@[simp] theorem roundAt_ecode (i : Fin 16) (s : State) : (roundAt i s).ecode = s.ecode := by
  cases h : isLastRound i <;> simp [roundAt, h, feistelRound]
@[simp] theorem roundAt_pending (i : Fin 16) (s : State) : (roundAt i s).pending = s.pending := by
  cases h : isLastRound i <;> simp [roundAt, h, feistelRound]

/-- Two states with equal fields are equal. -/
theorem state_ext {s t : State} (hl : s.l = t.l) (hr : s.r = t.r) (hc : s.c = t.c) (hd : s.d = t.d) (hk : s.rk = t.rk)
    (ho : s.dout = t.dout) (hn : s.rnd = t.rnd) (hp : s.phase = t.phase) (he : s.decr = t.decr)
    (hv : s.keyValid = t.keyValid) (hf : s.isDone = t.isDone) (hx : s.err = t.err) (hy : s.ecode = t.ecode)
    (hi : s.pending = t.pending) : s = t := by
  cases s; cases t; simp_all

end Sys2Proof.Laws
end

