-- ==== Sys2Proof/Laws/Ops.lean ====
section
/-! SUPPORT. What each shared operation can do, said once, to be cited instead of unfolding it. -/

namespace Sys2Proof.Laws

open Sys2Proof.Machine Sys2Proof.Safety

/-- `cmd_ready` says `PHASE = IDLE` and `ERR = 0`. -/
theorem cmdReady_iff (s : State) : cmdReady s = true ↔ s.phase = .idle ∧ s.err = false := by
  cases h : s.phase <;> simp [cmdReady, h]

/-- At an edge with `cmd_ready = 1` the command takes effect. -/
theorem accept_ready {s t : State} (h : cmdReady s = true) : accept s t = .next t := by simp [accept, h]

/-- At an edge with `cmd_ready = 0` the command leaves no trace. -/
theorem accept_not_ready {s t : State} (h : cmdReady s = false) : accept s t = .next s := by simp [accept, h]

/-- All that a presented command can lead to. -/
theorem accept_cases {s t u : State} (h : accept s t = .next u) :
    (cmdReady s = true ∧ u = t) ∨ (cmdReady s = false ∧ u = s) := by
  cases hr : cmdReady s <;> simp_all [accept]

/-- The state a command that is accepted leads to, at its accepting edge. -/
def acceptedState (i : Instr) (s : State) : State :=
  match i with
  | .nop => s
  | .ldkey k => startKeygen k s
  | .enc b => acceptBlock false b s
  | .dec b => acceptBlock true b s
  | .clr => clearData s
  | .rsvd5 => raiseFault .rsvdOp s
  | .rsvd6 => raiseFault .rsvdOp s
  | .rsvd7 => raiseFault .rsvdOp s

/-- Every meaning is an acceptance of one state update. -/
theorem exec_eq_accept (i : Instr) (s : State) : exec i s = accept s (acceptedState i s) := by cases i <;> rfl

/-- `ENC` and `DEC` with a valid schedule start the rounds. -/
theorem acceptBlock_valid {w : Bool} {b : Block} {s : State} (h : s.keyValid = true) :
    acceptBlock w b s = startCrypt w b s := by simp [acceptBlock, h]

/-- `ENC` and `DEC` without a valid schedule raise `NO_KEY`. -/
theorem acceptBlock_invalid {w : Bool} {b : Block} {s : State} (h : s.keyValid = false) :
    acceptBlock w b s = raiseFault .noKey s := by simp [acceptBlock, h]

/-- `RND = i + 1` selects entry `i`. -/
theorem roundSlot_some {n : Fin 17} {i : Fin 16} : roundSlot n = some i ↔ n.val = i.val + 1 := by
  unfold roundSlot
  split
  · simp only [Option.some.injEq, Fin.ext_iff]
    omega
  · simp only [reduceCtorEq, false_iff]
    omega

/-- `RND = 0` selects no entry. -/
theorem roundSlot_none {n : Fin 17} : roundSlot n = none ↔ n.val = 0 := by
  unfold roundSlot
  split <;> simp <;> omega

/-- The round after round `i + 1`, before the last. -/
theorem nextRnd_val_of_lt {i : Fin 16} (h : i.val < 15) : (nextRnd i).val = i.val + 2 := by simp [nextRnd, h]

/-- The last round is followed by `RND = 0`. -/
theorem nextRnd_last {i : Fin 16} (h : i.val = 15) : nextRnd i = 0 := by simp [nextRnd, h]

/-- Round `i + 1` is the last one exactly when `i = 15`. -/
theorem isLastRound_iff {i : Fin 16} : isLastRound i = true ↔ i.val = 15 := by simp [isLastRound]

/-- The key-generation step with `RND = i + 1`. -/
theorem keygenStep_at {s : State} {i : Fin 16} (h : s.rnd.val = i.val + 1) : keygenStep s = .next (keygenAt i s) := by
  simp [keygenStep, roundSlot_some.mpr h]

/-- All that a key-generation step can lead to. -/
theorem keygenStep_cases {s t : State} (h : keygenStep s = .next t) :
    ∃ i : Fin 16, s.rnd.val = i.val + 1 ∧ t = keygenAt i s := by
  unfold keygenStep at h
  split at h
  next i hi =>
    cases h
    exact ⟨i, roundSlot_some.mp hi, rfl⟩
  next => cases h

/-- The round step with `RND = i + 1`. -/
theorem roundStep_at {s : State} {i : Fin 16} (h : s.rnd.val = i.val + 1) : roundStep s = .next (roundAt i s) := by
  simp [roundStep, roundSlot_some.mpr h]

/-- All that a round step can lead to. -/
theorem roundStep_cases {s t : State} (h : roundStep s = .next t) :
    ∃ i : Fin 16, s.rnd.val = i.val + 1 ∧ t = roundAt i s := by
  unfold roundStep at h
  split at h
  next i hi =>
    cases h
    exact ⟨i, roundSlot_some.mp hi, rfl⟩
  next => cases h

/-- All that one edge can lead to: the cases of R170. -/
theorem edge_cases {p : PortIn} {s t : State} (h : edge p s = .next t) :
    (p.rst = true ∧ t = resetRegs s) ∨
    (p.rst = false ∧ s.phase = .keygen ∧ ∃ i : Fin 16, s.rnd.val = i.val + 1 ∧ t = keygenAt i s) ∨
    (p.rst = false ∧ s.phase = .crypt ∧ ∃ i : Fin 16, s.rnd.val = i.val + 1 ∧ t = roundAt i s) ∨
    (p.rst = false ∧ s.phase = .idle ∧ acceptedAt p s = false ∧ t = s) ∨
    (p.rst = false ∧ s.phase = .idle ∧ s.err = false ∧ acceptedAt p s = true ∧
      t = acceptedState (decodeWord p.cmd) s) := by
  unfold edge at h
  cases hr : p.rst
  · cases hp : s.phase with
    | keygen => simp only [hr, hp] at h; simpa using keygenStep_cases h
    | crypt => simp only [hr, hp] at h; simpa using roundStep_cases h
    | idle =>
      cases he : s.err <;> cases hv : p.cmdValid <;>
        simp_all [acceptedAt, cmdReady, exec_eq_accept, accept]
  · simp_all

/-- What leads to what: the five cases of `edge_cases`, each from its conditions. -/
theorem edge_reset {p : PortIn} {s : State} (h : p.rst = true) : edge p s = .next (resetRegs s) := by simp [edge, h]

theorem edge_keygen {p : PortIn} {s : State} {i : Fin 16} (hr : p.rst = false) (hp : s.phase = .keygen)
    (hn : s.rnd.val = i.val + 1) : edge p s = .next (keygenAt i s) := by simp [edge, hr, hp, keygenStep_at hn]

theorem edge_crypt {p : PortIn} {s : State} {i : Fin 16} (hr : p.rst = false) (hp : s.phase = .crypt)
    (hn : s.rnd.val = i.val + 1) : edge p s = .next (roundAt i s) := by simp [edge, hr, hp, roundStep_at hn]

theorem edge_hold {p : PortIn} {s : State} (hr : p.rst = false) (hp : s.phase = .idle) (ha : acceptedAt p s = false) :
    edge p s = .next s := by
  cases he : s.err <;> cases hv : p.cmdValid <;> simp_all [edge, acceptedAt, cmdReady]

theorem edge_accept {p : PortIn} {s : State} (ha : acceptedAt p s = true) : edge p s = exec (decodeWord p.cmd) s := by
  simp only [acceptedAt, Bool.and_eq_true, Bool.not_eq_true', cmdReady_iff] at ha
  simp [edge, ha.1.1, ha.1.2, ha.2.1, ha.2.2]

/-- Edges one after the other: the first edge, then the others. -/
theorem edges_cons {p : PortIn} {ps : List PortIn} {s t : State} (h : edge p s = .next t) :
    edges (p :: ps) s = edges ps t := by simp [edges, h]

/-- Edges of two lists of inputs. -/
theorem edges_append {ps qs : List PortIn} {s t : State} (h : edges ps s = .next t) :
    edges (ps ++ qs) s = edges qs t := by
  induction ps generalizing s with
  | nil => simpa [edges] using congrArg (fun o => match o with | .next u => edges qs u | .fault r => .fault r | .refused r => .refused r) h
  | cons p ps ih =>
    simp only [edges, List.cons_append] at h ⊢
    split at h
    · exact ih h
    · cases h
    · cases h

/-- The machine's step is an edge with the inputs that come next. -/
theorem step_eq_edge (s : State) : step s = edge (portNow s) (dropPort s) := rfl

/-- An edge that accepts nothing adds nothing to the commands accepted. -/
theorem acceptedBy_reject {p : PortIn} {ps : List PortIn} {s t : State} (ha : acceptedAt p s = false)
    (h : edge p s = .next t) : acceptedBy (p :: ps) s = acceptedBy ps t := by simp [acceptedBy, ha, h]

/-- An accepting edge adds the command of its word. -/
theorem acceptedBy_accept {p : PortIn} {ps : List PortIn} {s t : State} (ha : acceptedAt p s = true)
    (h : edge p s = .next t) : acceptedBy (p :: ps) s = decodeWord p.cmd :: acceptedBy ps t := by simp [acceptedBy, ha, h]

/-- The commands accepted over two lists of inputs, one after the other. -/
theorem acceptedBy_append {ps qs : List PortIn} {s t : State} (h : edges ps s = .next t) :
    acceptedBy (ps ++ qs) s = acceptedBy ps s ++ acceptedBy qs t := by
  induction ps generalizing s with
  | nil => cases h; rfl
  | cons p ps ih =>
    cases e : edge p s with
    | next u =>
      have h' : edges ps u = .next t := by simpa [edges, e] using h
      simp [acceptedBy, e, ih h']
    | fault r => simp [edges, e] at h
    | refused r => simp [edges, e] at h

end Sys2Proof.Laws
end

