-- ==== Sys2Proof/Laws/PerInstr.lean ====
section
/-! SUPPORT. Statements made per command: family `RowMatch`, an encoded command selects the row of the opcode map that
bears its mnemonic (spec/30_encoding.md R71). -/

namespace Sys2Proof.Laws.RowMatch

/-- The row named like the command selects its encoding. -/
abbrev Statement (i : Instr) : Prop :=
  ∀ row ∈ opcodeRows, row.mnemonic = i.mnemonic → row.selects (encode i) = true

/-- The mask of the opcode map is the three bits of `op` (R70). -/
theorem mask_getLsbD : ∀ i < 67, (0x70000000000000000#67).getLsbD i = decide (64 ≤ i) := by decide

/-- The mask keeps the opcode bits of a word and nothing else. -/
theorem mask_append (op : BitVec 3) (v : BitVec 64) :
    (op ++ v : BitVec 67) &&& 0x70000000000000000#67 = (op ++ 0#64 : BitVec 67) := by
  apply BitVec.eq_of_getLsbD_eq
  intro i hi
  rw [BitVec.getLsbD_and, mask_getLsbD i hi, BitVec.getLsbD_append, BitVec.getLsbD_append]
  by_cases h : i < 64 <;> simp [h] <;> omega

theorem nop : Statement .nop := by decide

theorem ldkey (k : Key) : Statement (.ldkey k) := by
  have h : (1#3 ++ k : BitVec 67) &&& 0x70000000000000000#67 = 0x10000000000000000#67 :=
    (mask_append 1#3 k).trans (by decide)
  simp [Statement, opcodeRows, Instr.mnemonic, OpcodeRow.selects, encode, Instr.opcode, Instr.operand, h]

theorem enc (b : Block) : Statement (.enc b) := by
  have h : (2#3 ++ b : BitVec 67) &&& 0x70000000000000000#67 = 0x20000000000000000#67 :=
    (mask_append 2#3 b).trans (by decide)
  simp [Statement, opcodeRows, Instr.mnemonic, OpcodeRow.selects, encode, Instr.opcode, Instr.operand, h]

theorem dec (b : Block) : Statement (.dec b) := by
  have h : (3#3 ++ b : BitVec 67) &&& 0x70000000000000000#67 = 0x30000000000000000#67 :=
    (mask_append 3#3 b).trans (by decide)
  simp [Statement, opcodeRows, Instr.mnemonic, OpcodeRow.selects, encode, Instr.opcode, Instr.operand, h]

theorem clr : Statement .clr := by decide

theorem rsvd5 : Statement .rsvd5 := by decide

theorem rsvd6 : Statement .rsvd6 := by decide

theorem rsvd7 : Statement .rsvd7 := by decide

end Sys2Proof.Laws.RowMatch
end

