-- ==== Sys2Proof/Laws/Tables.lean ====
section
/-! SUPPORT. The build-time checks of the constant tables (spec/40_bit_permutation_stages.md R97, R99;
spec/41_sbox_substitution.md R110, R122; spec/43_key_schedule.md R151), each by evaluation. -/

namespace Sys2Proof.Laws

open Sys2Proof.Machine

/-- Every table has the stated length and its entries are within `1..n_in` (R99). -/
theorem tables_wf :
    tableWf 64 64 ipTable && tableWf 64 64 fpTable && tableWf 32 48 eTable && tableWf 32 32 pTable &&
      tableWf 64 56 pc1Table && tableWf 56 48 pc2Table = true := by decide

/-- All tables but `E` have no repeated entry (R99). -/
theorem tables_distinct :
    tableDistinct ipTable && tableDistinct fpTable && tableDistinct pTable && tableDistinct pc1Table &&
      tableDistinct pc2Table = true := by decide

/-- The rotation list has sixteen entries, 1 or 2, with sum 28 (R151, R152). -/
theorem shift_wf : shiftWf shiftTable.toList = true := by decide

/-- The destination lists of R97 read the tables the other way. -/
theorem dest_inverts :
    tableInverts 64 ipTable ipDest && tableInverts 32 pTable pDest && tableInverts 56 pc1Table pc1Dest &&
      tableInverts 48 pc2Table pc2Dest = true := by decide

/-- The destination list of `E` in R97: input bit `i + 1` goes to output bit `j + 1` exactly when `E_TABLE[j + 1] = i + 1`. -/
theorem eDest_inverts : ∀ i < 32, eDest[i]? = some (((List.range 48).filter (fun j => eTable[j]? == some (i + 1))).map (· + 1)) := by
  decide

/-- The flat tables of R122 and the matrices of R111 to R118 agree on all 512 entries. -/
theorem flats_agree : ∀ j : Fin 8, ∀ g : BitVec 6, flatRead j g = romRead j g := by decide +kernel

end Sys2Proof.Laws
end

