-- ==== Sys2Proof/Tests/Slice0.lean ====
section
/-! SUPPORT. Tests: expected values are those printed in spec/ (95_test_vectors.md unless said otherwise). Below them, for
every statement of Certificates/Slice0/Obligations.lean with hypotheses, a witness that meets them all. -/

namespace Sys2Proof.Tests

open Sys2Proof.Machine Sys2Proof.Safety

/-- The key, plaintext and ciphertext of the source's known answer (section 1.1). -/
def katKey : Key := 0x133457799BBCDFF1
def katPlain : Block := 0x0123456789ABCDEF
def katCipher : Block := 0x85E813540F0AB405

/-- A check on the next state. -/
def nextIs (o : Host.Outcome State Fault Refusal) (f : State → Bool) : Bool :=
  match o with
  | .next t => f t
  | .fault _ => false
  | .refused _ => false

/-- The state after `LDKEY katKey` (section 6.2, edge 18). -/
def keyed : State := { State.reset with rk := keySchedule katKey, c := 0xF0CCAAF, d := 0x556678F, keyValid := true }

/-- The state after `LDKEY katKey ; ENC katPlain` (section 6.2, edge 35). -/
def encrypted : State := { keyed with l := 0x43423234, r := 0x0A4CD995, dout := katCipher, isDone := true }

/-- The halted state of section 6.3 line 5. -/
def halted : State := { keyed with err := true, ecode := .rsvdOp }

/-- Key generation about to perform its first step (section 6.2, edge 2). -/
def generating : State := { State.reset with c := 0xF0CCAAF, d := 0x556678F, phase := .keygen, rnd := 1 }

/-- A block about to enter its first round (section 6.2, edge 19). -/
def running : State := { keyed with l := 0xCC00CCFF, r := 0xF0AAF0AA, phase := .crypt, rnd := 1 }

/-- A block about to enter its last round: `L_15`, `R_15` of section 1.3. -/
def lastRound : State := { keyed with l := 0xC28C960D, r := 0x43423234, phase := .crypt, rnd := 16 }

/-! ### WellFormed: each check refuses an ill-formed term -/

theorem test_wordFits_refuses : wordFits 0x80000000000000000 = false := by decide
theorem test_wordFits_accepts : wordFits 0x7FFFFFFFFFFFFFFFF = true := by decide
theorem test_tableWf_refuses_zero : tableWf 32 2 [0, 1] = false := by decide
theorem test_tableWf_refuses_large : tableWf 32 2 [33, 1] = false := by decide
theorem test_tableWf_refuses_length : tableWf 32 3 [32, 1] = false := by decide
theorem test_tableDistinct_refuses : tableDistinct [1, 2, 1] = false := by decide
theorem test_tableInverts_refuses : tableInverts 3 [2, 3, 1] [2, 3, 1] = false := by decide
theorem test_sboxWf_refuses : sboxWf (s1Matrix.set 0 (Vector.replicate 16 0)) = false := by decide
theorem test_sboxWf_accepts : sboxMatrices.all (fun m => sboxWf m) = true := by decide +kernel
/-- The fifteen-entry list that 90_conflicts.md C1 rejects. -/
theorem test_shiftWf_refuses : shiftWf [1, 1, 2, 2, 2, 2, 2, 1, 2, 2, 2, 2, 2, 2, 1] = false := by decide
/-- There is no ill-formed command: every constructor passes (R75). -/
theorem test_instr_wf : [Instr.nop, .ldkey 0, .enc 0, .dec 0, .clr, .rsvd5, .rsvd6, .rsvd7].all Instr.wf = true := by decide

/-! ### Decoding: words written out from the encoding (R70, R71; section 6.1) -/

theorem test_decode_nop : decodeTableWord 72 0x0FFFFFFFFFFFFFFFF = some .nop := by decide
theorem test_decode_ldkey : decodeTableWord 72 0x1133457799BBCDFF1 = some (.ldkey 0x133457799BBCDFF1) := by decide
/-- The binary word that section 6.1 prints for `ENC 0x0123456789ABCDEF`. -/
theorem test_decode_enc :
    decodeWord 0b0100000000100100011010001010110011110001001101010111100110111101111 = .enc 0x0123456789ABCDEF := by decide
theorem test_decode_dec : decodeTableWord 67 0x385E813540F0AB405 = some (.dec 0x85E813540F0AB405) := by decide
theorem test_decode_clr : decodeTableWord 72 0x4DEADBEEF00000001 = some .clr := by decide
theorem test_decode_rsvd5 : decodeTableWord 72 0x5000000000000000A = some .rsvd5 := by decide
theorem test_decode_rsvd6 : decodeTableWord 72 0x60000000000000000 = some .rsvd6 := by decide
theorem test_decode_rsvd7 : decodeTableWord 72 0x7FFFFFFFFFFFFFFFF = some .rsvd7 := by decide
theorem test_decode_refuses_wide : decodeTableWord 72 0x80000000000000000 = none := by decide
theorem test_encode_ldkey : encode (.ldkey 0x133457799BBCDFF1) = 0x1133457799BBCDFF1 := by decide
theorem test_encode_clr : encode .clr = 0x40000000000000000 := by decide

/-! ### The functions: section 3.2, 4, 5 and 1 -/

theorem test_ip : ip 0x0123456789ABCDEF = 0xCC00CCFFF0AAF0AA ∧ ip 0x8000000000000000 = 0x0000000001000000 := by decide
theorem test_fp : fp 0x0A4CD99543423234 = 0x85E813540F0AB405 ∧ fp 0x0000000000000001 = 0x0200000000000000 := by decide
theorem test_expand : expand 0x12345678 = 0x0A41A82AC3F0 ∧ expand 0x80000000 = 0x400000000001 := by decide
theorem test_pPerm : pPerm 0x12345678 = 0x6E34140E ∧ pPerm 0x5C82B597 = 0x234AA9BB := by decide
theorem test_pc1 : pc1 0x133457799BBCDFF1 = 0xF0CCAAF556678F ∧ pc1 0x0101010101010101 = 0 := by decide
theorem test_pc2 : pc2 0x00804200840100 = 0x000800003000 ∧ pc2 0xE19955FAACCF1E = 0x1B02EFFC7072 := by decide
theorem test_sbox : sbox 0x842108421084 = 0xF19084B8 ∧ sbox 0x6117BA866527 = 0x5C82B597 := by decide
/-- The row bits: with them exchanged the outputs 4 and 0 would be exchanged (section 4). -/
theorem test_sbox_row_order : romRead 0 0b100000 = 4 ∧ romRead 0 0b000001 = 0 := by decide
theorem test_feistelF : feistelF 0xF0AAF0AA 0x1B02EFFC7072 = 0x234AA9BB ∧ feistelF 0 0 = 0xD8D8DBBC := by decide +kernel
theorem test_rotl28 : rotl28 0xF0CCAAF 1 = 0xE19955F ∧ rotl28 0x4000000 2 = 0x0000001 := by decide
theorem test_keySchedule :
    (keySchedule katKey)[0] = 0x1B02EFFC7072 ∧ (keySchedule katKey)[8] = 0xE0DBEBEDE781 ∧
      (keySchedule katKey)[15] = 0xCB3D8B0E17F5 := by decide +kernel
theorem test_known_answer : encryptBlock katPlain katKey = katCipher := by decide +kernel
theorem test_known_answer_back : decryptBlock katCipher katKey = katPlain := by decide +kernel
theorem test_arbitrary_block : encryptBlock 0x4B18B3643278391B 0xCAADF35EA79C5D55 = 0x1C427E364F38DC5C := by decide +kernel
theorem test_blockBytes : (blockBytes 0x0123456789ABCDEF)[0] = 0x01 ∧ (blockBytes 0x0123456789ABCDEF)[7] = 0xEF := by decide

/-! ### Commands and steps: sections 6.2 and 6.3 -/

theorem test_nop_status : nextIs (exec .nop State.reset) (fun t => t == State.reset && statusOf t == 0x00) = true := by decide
theorem test_ldkey_edge_2 :
    nextIs (step (State.reset.withFetchWord 72 0x1133457799BBCDFF1)) (fun t => t == generating && statusOf t == 0x01) = true := by decide
theorem test_keygen_edge_3 :
    nextIs (edge idlePort generating)
      (fun t => t.rk[0] == 0x1B02EFFC7072 && t.c == 0xE19955F && t.d == 0xAACCF1E && t.rnd == 2) = true := by decide
/-- Section 6.2, edge 18: the last step of `LDKEY`. -/
theorem test_keygen_last :
    nextIs (edge idlePort { generating with c := 0xF866557, d := 0xAAB33C7, rnd := 16 })
      (fun t => t.rk[15] == 0xCB3D8B0E17F5 && t.c == 0xF0CCAAF && statusOf t == 0x02) = true := by decide
/-- Section 6.3 line 11: `LDKEY` over a kept result. -/
theorem test_ldkey_keeps_output :
    nextIs (exec (.ldkey 0x0101010101010101) encrypted)
      (fun t => statusOf t == 0x05 && t.c == 0 && t.dout == katCipher) = true := by decide +kernel
theorem test_enc_edge_19 : nextIs (exec (.enc katPlain) keyed) (fun t => t == running && statusOf t == 0x03) = true := by decide +kernel
theorem test_round_edge_20 :
    nextIs (edge idlePort running) (fun t => t.l == 0xF0AAF0AA && t.r == 0xEF4A6544 && t.rnd == 2) = true := by decide +kernel
theorem test_round_edge_35 : nextIs (edge idlePort lastRound) (fun t => t == encrypted && statusOf t == 0x06) = true := by decide +kernel
theorem test_enc_without_key :
    nextIs (exec (.enc katPlain) State.reset) (fun t => t.l == 0 && statusOf t == 0x18 && !cmdReady t) = true := by decide
theorem test_dec_status : nextIs (exec (.dec katCipher) encrypted) (fun t => t.l == 0x0A4CD995 && statusOf t == 0x43) = true := by decide +kernel
/-- Section 2, row 1: the first round of a decryption uses `K_16`. -/
theorem test_dec_round_1 :
    nextIs (edge idlePort { running with l := 0x0A4CD995, r := 0x43423234, decr := true }) (fun t => t.r == 0xC28C960D) = true := by decide +kernel
theorem test_dec_without_key : nextIs (exec (.dec katCipher) State.reset) (fun t => !t.decr && statusOf t == 0x18) = true := by decide
theorem test_clr_resets : nextIs (exec .clr encrypted) (fun t => t == State.reset) = true := by decide +kernel
theorem test_clr_not_when_halted : nextIs (exec .clr halted) (fun t => t == halted) = true := by decide +kernel
theorem test_rsvd5_keeps_key : nextIs (exec .rsvd5 keyed) (fun t => t == halted && statusOf t == 0x2A) = true := by decide +kernel
theorem test_rsvd6_status : nextIs (exec .rsvd6 State.reset) (fun t => statusOf t == 0x28) = true := by decide
theorem test_rsvd7_status :
    nextIs (step (State.reset.withFetchWord 72 0x7FFFFFFFFFFFFFFFF)) (fun t => statusOf t == 0x28) = true := by decide
/-- Section 6.3 line 18: reset beats a running block and a presented command. -/
theorem test_reset_beats_all : nextIs (edge ⟨true, true, 0x20000000000000005⟩ running) (fun t => t == State.reset) = true := by decide
theorem test_stuck_is_named :
    (match edge idlePort { running with rnd := 0 } with | .fault r => r == .sequencerStuck | _ => false) = true := by decide
/-- Program 4 of section 10: after the fault the next command is never accepted. -/
theorem test_script_waits :
    runScript [.reset, .command (.enc katPlain), .command .nop] State.reset
      = .waiting { State.reset with err := true, ecode := .noKey } [] := by decide
/-- `READ` yields a result that is kept on the port (section 6.3 line 9). -/
theorem test_script_read : runScript [.read] encrypted = .finished encrypted [katCipher] := by decide +kernel

/-! ### Witnesses: concrete values that meet the hypotheses of each statement -/

theorem witness_resetPutsZero : resetPort.rst = true ∧ halted.err = true ∧ idlePort.rst = false ∧ edge idlePort halted = .next halted :=
  ⟨rfl, rfl, rfl, rfl⟩
theorem witness_heldReset : resetPort.rst = true ∧ AllReset [resetPort, ⟨true, true, 0x40000000000000000⟩] := by decide
theorem witness_acceptance :
    acceptedAt (cmdPort 0) State.reset = true ∧ acceptedAt idlePort State.reset = false ∧
      acceptedAt (cmdPort 0) halted = false ∧ (cmdPort 0).rst = idlePort.rst ∧ cmdReady halted = false := by decide
theorem witness_stepRuns :
    ({ State.reset with pending := [cmdPort (encode .clr)] } : State).pending = cmdPort (encode .clr) :: [] ∧
      acceptedAt (cmdPort (encode .clr)) { State.reset with pending := [cmdPort (encode .clr)] } = true ∧
      decodeWord (cmdPort (encode .clr)).cmd = .clr ∧ Instr.wf .clr = true ∧ State.reset.pending = [] ∧
      decodeTableWord 72 0x7FFFFFFFFFFFFFFFF = some .rsvd7 := by decide
/-- One witness for each of the six cases of an edge. -/
theorem witness_edgeCases :
    resetPort.rst = true ∧ idlePort.rst = false ∧ generating.phase = .keygen ∧ running.phase = .crypt ∧
      (halted.phase = .idle ∧ halted.err = true) ∧
      (keyed.phase = .idle ∧ keyed.err = false ∧ idlePort.cmdValid = false) ∧ (cmdPort 0).cmdValid = true := by decide
theorem witness_idleHolds : encrypted.phase = .idle ∧ NothingPresented [idlePort, ⟨false, false, 0x40000000000000000⟩] := by decide
theorem witness_ready : cmdReady State.reset = true ∧ cmdReady keyed = true ∧ cmdReady encrypted = true := by decide
/-- Both ends of the range of a key-generation step. -/
theorem witness_keygenStep :
    generating.phase = .keygen ∧ generating.rnd.val = (0 : Fin 16).val + 1 ∧
      ({ generating with rnd := 16 } : State).rnd.val = (15 : Fin 16).val + 1 := by decide
theorem witness_sixteenInputs : (List.replicate 16 idlePort).length = 16 ∧ NoReset (List.replicate 16 idlePort) := by decide
theorem witness_keyedAndUnkeyed : (cmdReady keyed = true ∧ keyed.keyValid = true) ∧ cmdReady State.reset = true ∧ State.reset.keyValid = false := by decide
theorem witness_scheduleOfKey : keyed.rk = keySchedule katKey := rfl
/-- Both ends of the range of a round step. -/
theorem witness_roundStep :
    running.phase = .crypt ∧ running.rnd.val = (0 : Fin 16).val + 1 ∧ (0 : Fin 16).val + (15 : Fin 16).val = 15 ∧
      lastRound.phase = .crypt ∧ lastRound.rnd.val = (15 : Fin 16).val + 1 := by decide
theorem witness_clr : cmdReady encrypted = true ∧ ControlInv encrypted ∧ cmdReady running = false := by decide
theorem witness_reserved : cmdReady keyed = true ∧ (Instr.rsvd6 = .rsvd5 ∨ Instr.rsvd6 = .rsvd6 ∨ Instr.rsvd6 = .rsvd7) := by decide
theorem witness_noKey : (Instr.dec 5 = .enc 5 ∨ Instr.dec 5 = .dec 5) ∧ cmdReady State.reset = true ∧ State.reset.keyValid = false := by decide
/-- Each of the two faults, raised from a state without one. -/
theorem witness_faults :
    edge (cmdPort (encode (.enc 5))) State.reset = .next { State.reset with err := true, ecode := .noKey } ∧
      edge (cmdPort (encode .rsvd5)) keyed = .next halted ∧ State.reset.err = false ∧ keyed.err = false ∧
      halted.err = true ∧ opField (cmdPort (encode .rsvd5)).cmd = 0b101 ∧ acceptedAt (cmdPort (encode .rsvd5)) keyed = true ∧
      decodeWord (cmdPort (encode (.enc 5))).cmd = .enc 5 :=
  ⟨rfl, rfl, rfl, rfl, rfl, by decide, by decide, by decide⟩
theorem witness_faultEntry : faultingAt (cmdPort (encode .rsvd7)) keyed = true ∧ NoReset [idlePort, cmdPort 0] := by decide
theorem witness_halted :
    ControlInv halted ∧ halted.err = true ∧ edge idlePort halted = .next halted ∧
      edge resetPort halted = .next (resetRegs halted) := ⟨by decide, rfl, rfl, rfl⟩
/-- `DOUT` changes at the last round, by `CLR` and by reset. -/
theorem witness_doutChanges :
    (nextIs (edge idlePort lastRound) (fun t => t.dout != lastRound.dout) &&
      nextIs (edge (cmdPort (encode .clr)) encrypted) (fun t => t.dout != encrypted.dout) &&
      nextIs (edge resetPort encrypted) (fun t => t.dout != encrypted.dout)) = true := by decide +kernel
/-- `RK` changes at a key-generation step, by `CLR` and by reset. -/
theorem witness_rkChanges :
    (nextIs (edge idlePort generating) (fun t => t.rk != generating.rk) &&
      nextIs (edge (cmdPort (encode .clr)) keyed) (fun t => t.rk != keyed.rk) &&
      nextIs (edge resetPort keyed) (fun t => t.rk != keyed.rk)) = true := by decide +kernel
/-- Another schedule that agrees with the loaded one on the one key the first round reads. -/
theorem witness_rkReader :
    (keyed.rk.set 5 0)[(0 : Fin 16)] = running.rk[(0 : Fin 16)] ∧ running.decr = false ∧ edge idlePort running = .next (roundAt 0 running) :=
  ⟨by decide +kernel, rfl, rfl⟩
/-- A flag rule's edge: setting, clearing and keeping. -/
theorem witness_flagEdges :
    edge idlePort lastRound = .next (roundAt 15 lastRound) ∧
      edge (cmdPort (encode (.enc katPlain))) encrypted = .next (startCrypt false katPlain encrypted) ∧
      lastRound.rnd = 16 ∧ idlePort.rst = false ∧ lastRound.phase = .crypt := ⟨rfl, rfl, rfl, rfl, rfl⟩
theorem witness_decrRule : cmdReady keyed = true ∧ keyed.keyValid = true ∧ exec (.enc 5) keyed = .next (startCrypt false 5 keyed) :=
  ⟨by decide, rfl, rfl⟩
theorem witness_controlIgnoresData :
    controlOf keyed = controlOf { keyed with rk := keySchedule 5, c := 1, dout := 7 } ∧
      SameExceptOperand (cmdPort (encode (.enc 1))) (cmdPort (encode (.enc 2))) ∧
      edge (cmdPort (encode (.enc 1))) keyed = .next (startCrypt false 1 keyed) := ⟨rfl, by decide, rfl⟩
theorem witness_outputStays :
    (Instr.enc 5 = .enc 5 ∨ Instr.enc 5 = .dec 5) ∧ cmdReady encrypted = true ∧ encrypted.keyValid = true ∧
      NoReset (List.replicate 15 idlePort) ∧ (List.replicate 15 idlePort).length ≤ 15 ∧ ControlInv encrypted ∧
      encrypted.isDone = true := by decide
theorem witness_outputStays_edge : edge idlePort encrypted = .next encrypted := rfl
theorem witness_controlInv_idle : ControlInv keyed := by decide
theorem witness_controlInv_keygen : ControlInv generating := by decide
theorem witness_controlInv_crypt : ControlInv running := by decide
/-- The invariants of R43 hold, not vacuously, in the state of section 6.2 edge 19. -/
theorem witness_historyInv : HistoryInv ⟨some katKey, some (katPlain, katKey)⟩ running :=
  ⟨by decide, fun _ => ⟨katKey, rfl, rfl, by decide +kernel⟩, fun h => absurd h (by decide),
    fun _ => ⟨katPlain, katKey, rfl, rfl, by decide +kernel⟩, fun h => absurd h (by decide)⟩
theorem witness_historyInv_step : step running = .next (roundAt 0 (dropPort running)) := rfl
theorem witness_liveness : ControlInv running ∧ NoFaultRecorded running ∧ ControlInv halted ∧ halted.err = true := by decide
/-- The edges of a command: one, or seventeen. -/
theorem witness_commandEdges :
    keyed.phase = .idle ∧ (List.replicate 16 idlePort).length + 1 = commandEdges (.enc 5) keyed ∧
      ([] : List PortIn).length + 1 = commandEdges .nop keyed := by decide
/-- A `NOP` with nothing after it, then `LDKEY` with sixteen edges at which a `CLR` is presented to the busy core, and
one idle edge more. -/
theorem witness_handshake :
    FollowsHandshake
      [(.nop, []), (.ldkey katKey, List.replicate 16 (cmdPort (encode .clr)) ++ [idlePort])] State.reset :=
  ⟨by decide, by decide, by decide, by decide, by decide, by decide +kernel, trivial⟩
/-- A run of any inputs that ends idle, with one command accepted and one presented too early. -/
theorem witness_acceptedSoFar :
    State.reset.phase = .idle ∧ NoReset [cmdPort (encode .rsvd5), cmdPort (encode .clr)] ∧
      edges [cmdPort (encode .rsvd5), cmdPort (encode .clr)] State.reset = .next { State.reset with err := true, ecode := .rsvdOp } ∧
      acceptedBy [cmdPort (encode .rsvd5), cmdPort (encode .clr)] State.reset = [.rsvd5] :=
  ⟨rfl, by decide, rfl, by decide⟩
theorem witness_call : ControlInv keyed ∧ cmdReady keyed = true := by decide
/-- A busy and a halted core, each not ready, at an edge without reset. -/
theorem witness_unready :
    cmdReady running = false ∧ cmdReady halted = false ∧ halted.phase = .idle ∧ idlePort.rst = false ∧
      edge idlePort running = .next (roundAt 0 running) := ⟨by decide, by decide, rfl, rfl, rfl⟩
/-- Two arguments of the round function with one exclusive or. -/
theorem witness_sameMix : expand 0 ^^^ 0xFFFFFFFFFFFF = expand 0xFFFFFFFF ^^^ 0 := by decide
theorem witness_tableIndex :
    [58, 60, 62, 64, 57, 59, 61, 63][7]? = some 63 ∧ (7 : Nat) < 8 ∧ (5 : Nat) < 6 ∧ 0 < ipTable.length ∧
      29 ∈ pc2Table.drop 24 ∧ 28 ∈ pc2Table.take 24 := by decide
theorem witness_permute : [3, 1].length = 2 ∧ (∀ e ∈ [3, 1], 1 ≤ e ∧ e ≤ 3) ∧ 1 < [3, 1].length := by decide
theorem witness_sboxIndex :
    (2 : Fin 4).val = 2 * (dbit (0x800000000000 : RoundKey) 1).toNat + (dbit (0x800000000000 : RoundKey) 6).toNat ∧
      (0 : Fin 16).val = 8 * (dbit (0x800000000000 : RoundKey) 2).toNat + 4 * (dbit (0x800000000000 : RoundKey) 3).toNat +
        2 * (dbit (0x800000000000 : RoundKey) 4).toNat + (dbit (0x800000000000 : RoundKey) 5).toNat ∧
      (3 : Fin 4).val = 2 * (1 : Fin 2).val + (1 : Fin 2).val := by decide
theorem witness_rotation : (2 = 1 ∨ 2 = 2) ∧ 1 ≤ 28 ∧ 28 ≤ 28 := by decide
theorem witness_cumulative : [1, 2, 4, 6, 8, 10, 12, 14, 15, 17, 19, 21, 23, 25, 27, 28][(15 : Fin 16).val]? = some 28 := by decide
theorem witness_parity : (0x0101010101010101 : Key) &&& 0xFEFEFEFEFEFEFEFE = 0 := by decide
/-- One half all ones, the other all zeros (R155). -/
theorem witness_degenerate : cOperand 0xE0E0E0E0F1F1F1F1 = BitVec.allOnes 28 ∧ dOperand 0xE0E0E0E0F1F1F1F1 = 0 := by decide
theorem witness_selected : opField (encode (.enc 1)) = opField (encode (.enc 2)) ∧ Instr.wf (.enc 1) = true := by decide
theorem witness_cumulative_first : [1, 2, 4, 6, 8, 10, 12, 14, 15, 17, 19, 21, 23, 25, 27, 28][(0 : Fin 16).val]? = some 1 := by decide

end Sys2Proof.Tests
end

/-! ## Proofs: the edge of the core, said once for all statements about it -/

namespace Sys2Proof.Proofs

open Sys2Proof.Machine Sys2Proof.Safety Sys2Proof.Laws

/-! ### Busy rounds and their index (R31) -/

/-- With `RND = i + 1`, the value 16 says that the round is the last one. -/
theorem rnd_eq_sixteen_iff {n : Fin 17} {i : Fin 16} (h : n.val = i.val + 1) : n = 16 ↔ isLastRound i = true := by
  rw [isLastRound_iff, Fin.ext_iff, h, show (16 : Fin 17).val = 15 + 1 from rfl, Nat.add_right_cancel_iff]

/-- `RND` returns to 0 after the last round and only then. -/
theorem nextRnd_eq_zero_iff {i : Fin 16} : nextRnd i = 0 ↔ isLastRound i = true := by
  rw [isLastRound_iff]
  constructor
  · intro h
    by_contra hi
    have hv := nextRnd_val_of_lt (show i.val < 15 by omega)
    simp [h] at hv
  · exact nextRnd_last

/-- Before the last round, `RND` of the next round is one more. -/
theorem nextRnd_val_of_not_last {i : Fin 16} (h : isLastRound i = false) : (nextRnd i).val = i.val + 2 := by
  have hi : ¬ i.val = 15 := fun e => by simp [isLastRound_iff.mpr e] at h
  exact nextRnd_val_of_lt (by omega)

/-! ### Acceptance (R40, R202) -/

/-- An accepting edge: no reset, a command presented, an idle core with no fault recorded. -/
theorem acceptedAt_iff {p : PortIn} {s : State} :
    acceptedAt p s = true ↔ p.rst = false ∧ p.cmdValid = true ∧ s.phase = .idle ∧ s.err = false := by
  simp [acceptedAt, cmdReady_iff, and_assoc]

/-- Nothing is accepted at a reset edge. -/
theorem not_accepted_of_rst {p : PortIn} {s : State} (h : p.rst = true) : acceptedAt p s = false := by
  simp [acceptedAt, h]

/-- A busy core accepts nothing. -/
theorem not_accepted_of_busy {p : PortIn} {s : State} (h : s.phase ≠ .idle) : acceptedAt p s = false :=
  Bool.eq_false_iff.mpr fun ha => h (acceptedAt_iff.mp ha).2.2.1

/-- At an edge that accepts nothing no fault is raised. -/
theorem not_faulting_of_not_accepted {p : PortIn} {s : State} (h : acceptedAt p s = false) :
    faultingAt p s = false := by simp [faultingAt, h]

/-- `ENC b` (`decrypt = false`) and `DEC b` (`decrypt = true`): the two commands that run a block. -/
def blockCommand (decrypt : Bool) (b : Block) : Instr := if decrypt then .dec b else .enc b

@[simp] theorem blockCommand_false (b : Block) : blockCommand false b = .enc b := rfl
@[simp] theorem blockCommand_true (b : Block) : blockCommand true b = .dec b := rfl

/-- Either direction is `ENC` or `DEC` of that block. -/
theorem blockCommand_enc_or_dec (w : Bool) (b : Block) : blockCommand w b = .enc b ∨ blockCommand w b = .dec b := by
  cases w <;> simp

/-- A block command is accepted as a block. -/
theorem acceptedState_blockCommand (w : Bool) (b : Block) (s : State) :
    acceptedState (blockCommand w b) s = acceptBlock w b s := by cases w <;> rfl

/-- A block command faults exactly without a valid schedule (R182). -/
theorem raisesFault_blockCommand (w : Bool) (b : Block) (s : State) :
    raisesFault (blockCommand w b) s = !s.keyValid := by cases w <;> rfl

/-! ### What one edge does: one constructor for each thing that can happen -/

/-- `EdgeEffect p s t`: the edge with inputs `p` takes `s` to `t`, by one of the nine things an edge can do (R170 with
the commands of R171 to R182). -/
inductive EdgeEffect (p : PortIn) (s : State) : State → Prop
  /-- A reset. -/
  | reset (hr : p.rst = true) : EdgeEffect p s (resetRegs s)
  /-- Key-generation step `i + 1`. -/
  | keygen (i : Fin 16) (hr : p.rst = false) (hp : s.phase = .keygen) (hn : s.rnd.val = i.val + 1) :
      EdgeEffect p s (keygenAt i s)
  /-- Round `i + 1`. -/
  | round (i : Fin 16) (hr : p.rst = false) (hp : s.phase = .crypt) (hn : s.rnd.val = i.val + 1) :
      EdgeEffect p s (roundAt i s)
  /-- An idle core that accepts nothing. -/
  | hold (hr : p.rst = false) (hp : s.phase = .idle) (ha : acceptedAt p s = false) : EdgeEffect p s s
  /-- An accepted `NOP`. -/
  | nop (ha : acceptedAt p s = true) (hi : decodeWord p.cmd = .nop) : EdgeEffect p s s
  /-- An accepted `LDKEY`. -/
  | ldkey (k : Key) (ha : acceptedAt p s = true) (hi : decodeWord p.cmd = .ldkey k) : EdgeEffect p s (startKeygen k s)
  /-- An `ENC` or `DEC` accepted as work. -/
  | block (w : Bool) (b : Block) (ha : acceptedAt p s = true) (hi : decodeWord p.cmd = blockCommand w b)
      (hk : s.keyValid = true) : EdgeEffect p s (startCrypt w b s)
  /-- An accepted `CLR`. -/
  | clr (ha : acceptedAt p s = true) (hi : decodeWord p.cmd = .clr) : EdgeEffect p s (clearData s)
  /-- An accepted command that faults. -/
  | fault (code : ECode) (ha : acceptedAt p s = true) (hf : raisesFault (decodeWord p.cmd) s = true)
      (hc : code ≠ .none) : EdgeEffect p s (raiseFault code s)

/-- An accepted block command starts the rounds, or faults without a schedule. -/
theorem EdgeEffect.of_block {p : PortIn} {s : State} (w : Bool) (b : Block) (ha : acceptedAt p s = true)
    (hi : decodeWord p.cmd = blockCommand w b) : EdgeEffect p s (acceptBlock w b s) := by
  cases hk : s.keyValid with
  | true => exact acceptBlock_valid hk ▸ .block w b ha hi hk
  | false => exact acceptBlock_invalid hk ▸ .fault .noKey ha (by simp [hi, raisesFault_blockCommand, hk]) (by decide)

/-- An accepted command has one of the effects listed. -/
theorem EdgeEffect.of_accepted {p : PortIn} {s : State} (ha : acceptedAt p s = true) :
    EdgeEffect p s (acceptedState (decodeWord p.cmd) s) := by
  cases hi : decodeWord p.cmd with
  | nop => exact .nop ha hi
  | ldkey k => exact .ldkey k ha hi
  | enc b => exact .of_block false b ha hi
  | dec b => exact .of_block true b ha hi
  | clr => exact .clr ha hi
  | rsvd5 => exact .fault .rsvdOp ha (hi ▸ rfl) (by decide)
  | rsvd6 => exact .fault .rsvdOp ha (hi ▸ rfl) (by decide)
  | rsvd7 => exact .fault .rsvdOp ha (hi ▸ rfl) (by decide)

/-- Every edge that gives a next state has one of the effects listed. -/
theorem edgeEffect_of_edge {p : PortIn} {s t : State} (h : edge p s = .next t) : EdgeEffect p s t := by
  obtain ⟨hr, rfl⟩ | ⟨hr, hp, i, hn, rfl⟩ | ⟨hr, hp, i, hn, rfl⟩ | ⟨hr, hp, ha, rfl⟩ | ⟨-, -, -, ha, rfl⟩ := edge_cases h
  · exact .reset hr
  · exact .keygen i hr hp hn
  · exact .round i hr hp hn
  · exact .hold hr hp ha
  · exact .of_accepted ha

/-- An accepting edge leads to the state of the accepted command. -/
theorem edge_accepted {p : PortIn} {s : State} (ha : acceptedAt p s = true) :
    edge p s = .next (acceptedState (decodeWord p.cmd) s) := by
  obtain ⟨-, -, hp, he⟩ := acceptedAt_iff.mp ha
  rw [edge_accept ha, exec_eq_accept, accept_ready ((cmdReady_iff s).mpr ⟨hp, he⟩)]

/-! ### The rotating key halves and the rounds, one step at a time (R135, R152) -/

/-- Rotations within 28 bits add up. -/
theorem rotl28_rotl28 (v : KeyHalf) (m n : Nat) : rotl28 (rotl28 v m) n = rotl28 v (m + n) := by
  apply BitVec.eq_of_getMsbD_eq
  intro i hi
  simp only [rotl28, BitVec.getMsbD_rotateLeft, hi, decide_true, Bool.true_and, Nat.add_mod_mod,
    Nat.mod_lt _ (by decide : 0 < 28)]
  rw [Nat.add_assoc]

/-- A rotation by 0 is none. -/
theorem rotl28_zero (v : KeyHalf) : rotl28 v 0 = v := by
  apply BitVec.eq_of_getMsbD_eq
  intro i hi
  simp [rotl28, BitVec.getMsbD_rotateLeft, hi, Nat.mod_eq_of_lt]

/-- A rotation by 28 is none. -/
theorem rotl28_full (v : KeyHalf) : rotl28 v 28 = v := by
  calc rotl28 v 28 = rotl28 v 0 := BitVec.rotateLeft_mod_eq_rotateLeft.symm
    _ = v := rotl28_zero v

/-- Rotating both halves by each amount of a list is rotating them by its sum. -/
theorem foldl_rotateHalves (l : List Nat) (h : KeyHalves) : l.foldl rotateHalves h = rotateHalves h l.sum := by
  induction l generalizing h with
  | nil => simp [rotateHalves, rotl28_zero]
  | cons n l ih => simp [ih, rotateHalves, rotl28_rotl28]

/-- The recurrence of R152: one more rotation. -/
theorem keyHalvesAfter_succ (k : Key) (i : Fin 16) :
    keyHalvesAfter k (i.val + 1) = rotateHalves (keyHalvesAfter k i.val) shiftTable[i] := by
  have hi : i.val < shiftTable.toList.length := by simp
  rw [keyHalvesAfter, ← List.take_append_getElem hi, List.foldl_concat]
  rfl

/-- Sixteen rotations bring the halves back (R152). -/
theorem keyHalvesAfter_sixteen (k : Key) : keyHalvesAfter k 16 = initialKeyHalves k := by
  rw [keyHalvesAfter, foldl_rotateHalves, show (shiftTable.toList.take 16).sum = 28 by decide]
  simp [rotateHalves, rotl28_full]

/-- The two initial key halves together are `PC1(k)`. -/
theorem initialKeyHalves_append (k : Key) : (initialKeyHalves k).1 ++ (initialKeyHalves k).2 = pc1 k := by
  simp only [initialKeyHalves, cOperand, dOperand, highKeyHalf, lowKeyHalf]
  rw [BitVec.extractLsb'_append_extractLsb'_eq_extractLsb' (by decide : 28 = 0 + 28)]
  exact BitVec.extractLsb'_eq_self

/-- The round keys are those of the rotated halves (R153). -/
theorem keySchedule_getElem (k : Key) (i : Fin 16) : (keySchedule k)[i] = roundKeyOf (keyHalvesAfter k (i.val + 1)) := by
  simp [keySchedule]

/-- The recurrence of R135: one more round, with the key that round reads. -/
theorem halvesAfter_succ (b : Block) (ks : Schedule) (w : Bool) (i : Fin 16) :
    halvesAfter b ks w (i.val + 1) = feistelRound (halvesAfter b ks w i.val) (roundKeyAt ks w i) := by
  have hi : i.val < (keySequence ks w).length := by simp [keySequence]
  rw [halvesAfter, ← List.take_append_getElem hi, List.foldl_concat]
  simp [halvesAfter, keySequence]

end Sys2Proof.Proofs

/-! ## Proofs: the invariants of R43, kept by every edge -/

namespace Sys2Proof.Proofs

open Sys2Proof.Machine Sys2Proof.Safety Sys2Proof.Laws

/-! ### The control invariant -/

/-- From a state that meets the control invariant an edge always gives a next state. -/
theorem exists_edge_of_controlInv {p : PortIn} {s : State} (h : ControlInv s) : ∃ t, edge p s = .next t := by
  obtain ⟨hidle, -⟩ := h
  have hbusy (hp : s.phase ≠ .idle) : ∃ i : Fin 16, s.rnd.val = i.val + 1 := by
    have hn : s.rnd.val ≠ 0 := fun e => hp (hidle.mpr (Fin.ext e))
    exact ⟨⟨s.rnd.val - 1, by omega⟩, by simp only; omega⟩
  cases hr : p.rst with
  | true => exact ⟨_, edge_reset hr⟩
  | false =>
    cases hp : s.phase with
    | keygen =>
      obtain ⟨i, hn⟩ := hbusy (by simp [hp])
      exact ⟨_, edge_keygen hr hp hn⟩
    | crypt =>
      obtain ⟨i, hn⟩ := hbusy (by simp [hp])
      exact ⟨_, edge_crypt hr hp hn⟩
    | idle =>
      cases ha : acceptedAt p s with
      | true => exact ⟨_, edge_accepted ha⟩
      | false => exact ⟨_, edge_hold hr hp ha⟩

/-- A busy core has no fault recorded. -/
theorem err_eq_false_of_busy {s : State} (h : ControlInv s) (hp : s.phase ≠ .idle) : s.err = false := by
  obtain ⟨-, -, -, herr, -⟩ := h
  exact Bool.eq_false_iff.mpr fun he => hp (herr he).1

/-- Every edge keeps the control invariant. -/
theorem edge_keeps_controlInv {p : PortIn} {s t : State} (h : ControlInv s) (he : edge p s = .next t) :
    ControlInv t := by
  have ⟨hidle, hkeygen, hcrypt, _, hcode⟩ := h
  cases edgeEffect_of_edge he with
  | reset => simp [ControlInv]
  | keygen i hr hp hn =>
    have hne := err_eq_false_of_busy h (by simp [hp])
    cases hl : isLastRound i <;> simp [ControlInv, nextRnd_eq_zero_iff, hl, hp, hne, hkeygen hp, hcode hne]
  | round i hr hp hn =>
    have hne := err_eq_false_of_busy h (by simp [hp])
    cases hl : isLastRound i <;> simp [ControlInv, nextRnd_eq_zero_iff, hl, hp, hne, hcrypt hp, hcode hne]
  | hold => exact h
  | nop => exact h
  | ldkey k ha =>
    obtain ⟨-, -, -, hne⟩ := acceptedAt_iff.mp ha
    simp [ControlInv, hne, hcode hne]
  | block w b ha hi hk =>
    obtain ⟨-, -, -, hne⟩ := acceptedAt_iff.mp ha
    simp [ControlInv, hk, hne, hcode hne]
  | clr ha =>
    obtain ⟨-, -, hp, hne⟩ := acceptedAt_iff.mp ha
    simp [ControlInv, hp, hidle.mp hp, hne, hcode hne]
  | fault code ha hf hc =>
    obtain ⟨-, -, hp, -⟩ := acceptedAt_iff.mp ha
    simp [ControlInv, hp, hidle.mp hp, hc]

/-! ### What an edge adds to the host's history -/

theorem historyNext_reset {p : PortIn} {s : State} {g : History} (h : p.rst = true) :
    historyNext p s g = .empty := by simp [historyNext, h]

theorem historyNext_reject {p : PortIn} {s : State} {g : History} (hr : p.rst = false)
    (ha : acceptedAt p s = false) : historyNext p s g = g := by simp [historyNext, hr, ha]

section Accepted

variable {p : PortIn} {s : State} {g : History} (ha : acceptedAt p s = true)
include ha

theorem historyNext_nop (hi : decodeWord p.cmd = .nop) : historyNext p s g = g := by
  simp [historyNext, (acceptedAt_iff.mp ha).1, ha, hi]

theorem historyNext_ldkey {k : Key} (hi : decodeWord p.cmd = .ldkey k) :
    historyNext p s g = { g with key := some k } := by
  simp [historyNext, (acceptedAt_iff.mp ha).1, ha, hi]

theorem historyNext_block {w : Bool} {b : Block} (hi : decodeWord p.cmd = blockCommand w b)
    (hk : s.keyValid = true) : historyNext p s g = { g with work := g.key.map (fun k => (b, k)) } := by
  cases w <;> simp [historyNext, (acceptedAt_iff.mp ha).1, ha, hi, hk]

theorem historyNext_clr (hi : decodeWord p.cmd = .clr) : historyNext p s g = .empty := by
  simp [historyNext, (acceptedAt_iff.mp ha).1, ha, hi]

theorem historyNext_fault (hf : raisesFault (decodeWord p.cmd) s = true) : historyNext p s g = g := by
  have hr := (acceptedAt_iff.mp ha).1
  cases hi : decodeWord p.cmd <;> simp_all [historyNext, raisesFault]

end Accepted

/-! ### The invariants that speak of the history -/

/-- An idle core without a schedule and without a result owes the history nothing. -/
theorem historyInv_of_blank {g : History} {s : State} (hc : ControlInv s) (hp : s.phase = .idle)
    (hk : s.keyValid = false) (hd : s.isDone = false) : HistoryInv g s :=
  ⟨hc, by simp [hk], by simp [hp], by simp [hp], by simp [hd]⟩

/-- Key-generation step `i + 1` turns the halves and the first `i` round keys of `k` into those one step later (R173). -/
theorem keygenAt_follows_schedule {k : Key} {i : Fin 16} {s : State} (hcd : (s.c, s.d) = keyHalvesAfter k i.val)
    (hrk : ∀ j : Fin 16, j.val < i.val → s.rk[j] = (keySchedule k)[j]) :
    ((keygenAt i s).c, (keygenAt i s).d) = keyHalvesAfter k (i.val + 1) ∧
      ∀ j : Fin 16, j.val < i.val + 1 → (keygenAt i s).rk[j] = (keySchedule k)[j] := by
  have hstep : rotateHalves (s.c, s.d) shiftTable[i] = keyHalvesAfter k (i.val + 1) := by
    rw [hcd, keyHalvesAfter_succ]
  refine ⟨by rw [← hstep, keygenAt_c, keygenAt_d]; rfl, fun j hj => ?_⟩
  rw [keygenAt_rk, hstep, ← keySchedule_getElem]
  by_cases hij : i.val = j.val
  · obtain rfl := Fin.ext hij
    simp
  · simpa [Vector.getElem_set, hij] using hrk j (by omega)

/-- Round `i + 1` turns the halves after `i` rounds into those after one more (R177). -/
theorem roundAt_follows_rounds {b : Block} {ks : Schedule} {i : Fin 16} {s : State} (hrk : s.rk = ks)
    (hlr : (s.l, s.r) = halvesAfter b ks s.decr i.val) :
    ((roundAt i s).l, (roundAt i s).r) = halvesAfter b ks s.decr (i.val + 1) := by
  rw [halvesAfter_succ, ← hlr, ← hrk, roundAt_l, roundAt_r]
  rfl

/-- A key-generation step does not lead to a running block. -/
theorem keygenAt_phase_ne_crypt {i : Fin 16} {s : State} (hp : s.phase = .keygen) : (keygenAt i s).phase ≠ .crypt := by
  rw [keygenAt_phase]
  split <;> simp [hp]

/-- A round does not lead to key generation. -/
theorem roundAt_phase_ne_keygen {i : Fin 16} {s : State} (hp : s.phase = .crypt) : (roundAt i s).phase ≠ .keygen := by
  rw [roundAt_phase]
  split <;> simp [hp]

/-- A key-generation step keeps the invariants; the last one establishes `KeyInv`. -/
theorem keygenAt_keeps_historyInv {g : History} {s : State} {i : Fin 16} (h : HistoryInv g s)
    (hc : ControlInv (keygenAt i s)) (hp : s.phase = .keygen) (hn : s.rnd.val = i.val + 1) :
    HistoryInv g (keygenAt i s) := by
  obtain ⟨hcontrol, -, hkeygen, -, hout⟩ := h
  obtain ⟨k, hg, hcd, hrk⟩ := hkeygen hp
  obtain ⟨hcd', hrk'⟩ := keygenAt_follows_schedule (i := i) (by simpa [hn] using hcd) (fun j hj => hrk j (by omega))
  refine ⟨hc, fun hv => ⟨k, hg, ?_⟩, fun hq => ⟨k, hg, ?_⟩,
    fun hq => absurd hq (keygenAt_phase_ne_crypt hp), by simpa [OutputInv] using hout⟩
  · have hkv : s.keyValid = false := hcontrol.2.1 hp
    have hl : i.val = 15 := isLastRound_iff.mp (by simpa [hkv] using hv)
    rw [hl] at hcd'
    rw [keyHalvesAfter_sixteen] at hcd'
    refine ⟨Vector.ext fun j hj => hrk' ⟨j, hj⟩ (by simp only; omega), ?_⟩
    rw [← initialKeyHalves_append, ← hcd']
  · have hl : isLastRound i = false := by simpa [hp] using hq
    rw [keygenAt_rnd, nextRnd_val_of_not_last hl]
    exact ⟨hcd', fun j hj => hrk' j (by omega)⟩

/-- A round keeps the invariants; the last one establishes `OutputInv`. -/
theorem roundAt_keeps_historyInv {g : History} {s : State} {i : Fin 16} (h : HistoryInv g s)
    (hc : ControlInv (roundAt i s)) (hp : s.phase = .crypt) (hn : s.rnd.val = i.val + 1) :
    HistoryInv g (roundAt i s) := by
  obtain ⟨⟨-, -, hbusy, -⟩, hkey, -, hcrypt, -⟩ := h
  obtain ⟨hkv, hdone⟩ := hbusy hp
  obtain ⟨b, k, hwork, hg, hlr⟩ := hcrypt hp
  obtain ⟨k', hg', hrk, -⟩ := hkey hkv
  obtain rfl : k' = k := Option.some.inj (hg'.symm.trans hg)
  have hlr' := roundAt_follows_rounds (i := i) hrk (by simpa [hn] using hlr)
  refine ⟨hc, by simpa [KeyInv] using hkey, fun hq => absurd hq (roundAt_phase_ne_keygen hp),
    fun hq => ⟨b, k', hwork, hg, ?_⟩, fun hd => ⟨b, k', hwork, ?_⟩⟩
  · have hl : isLastRound i = false := by simpa [hp] using hq
    rw [roundAt_rnd, nextRnd_val_of_not_last hl, roundAt_decr]
    exact hlr'
  · have hl : isLastRound i = true := by simpa [hdone] using hd
    rw [isLastRound_iff.mp hl] at hlr'
    rw [roundAt_decr, crypt, ← hlr', roundAt_dout, if_pos hl, roundAt_l, roundAt_r]
    rfl

/-- Every edge keeps the invariants of R43 relative to what the host has asked for. -/
theorem edge_keeps_historyInv {p : PortIn} {g : History} {s t : State} (h : HistoryInv g s)
    (he : edge p s = .next t) : HistoryInv (historyNext p s g) t := by
  have hc := edge_keeps_controlInv h.1 he
  cases edgeEffect_of_edge he with
  | reset hr => exact historyInv_of_blank hc rfl rfl rfl
  | keygen i hr hp hn =>
    rw [historyNext_reject hr (not_accepted_of_busy (by simp [hp]))]
    exact keygenAt_keeps_historyInv h hc hp hn
  | round i hr hp hn =>
    rw [historyNext_reject hr (not_accepted_of_busy (by simp [hp]))]
    exact roundAt_keeps_historyInv h hc hp hn
  | hold hr hp ha => rwa [historyNext_reject hr ha]
  | nop ha hi => rwa [historyNext_nop ha hi]
  | ldkey k ha hi =>
    obtain ⟨-, -, -, -, hout⟩ := h
    rw [historyNext_ldkey ha hi]
    exact ⟨hc, by simp, fun _ => ⟨k, rfl, rfl, by simp⟩, by simp, hout⟩
  | block w b ha hi hk =>
    obtain ⟨-, hkey, -, -, -⟩ := h
    obtain ⟨k, hg, -⟩ := hkey hk
    rw [historyNext_block ha hi hk]
    exact ⟨hc, hkey, by simp, fun _ => ⟨b, k, by simp [hg], hg, rfl⟩, by simp⟩
  | clr ha hi =>
    obtain ⟨-, -, hp, -⟩ := acceptedAt_iff.mp ha
    exact historyInv_of_blank hc hp rfl rfl
  | fault code ha hf =>
    obtain ⟨-, hkey, hkeygen, hcrypt, hout⟩ := h
    rw [historyNext_fault ha hf]
    exact ⟨hc, hkey, hkeygen, hcrypt, hout⟩

/-- The reset state meets the invariants, whatever was asked for. -/
theorem historyInv_reset (g : History) : HistoryInv g State.reset :=
  historyInv_of_blank (by decide) rfl rfl rfl

/-- A run of edges from a state that meets the invariants never stops and ends in one that meets them. -/
theorem edges_keep_historyInv (ps : List PortIn) {g : History} {s : State} (h : HistoryInv g s) :
    ∃ t, edges ps s = .next t ∧ HistoryInv (historyAfter ps s g) t := by
  induction ps generalizing g s with
  | nil => exact ⟨s, rfl, h⟩
  | cons p ps ih =>
    obtain ⟨u, hu⟩ := exists_edge_of_controlInv (p := p) h.1
    obtain ⟨t, ht, hinv⟩ := ih (edge_keeps_historyInv h hu)
    exact ⟨t, by rw [edges_cons hu, ht], by simpa [historyAfter, hu] using hinv⟩

/-- Settles O35: the run of edges starts from reset, which meets the invariants. -/
theorem reachableStatesMeetTheInvariants : Obligations.ReachableStatesMeetTheInvariants :=
  fun ps => edges_keep_historyInv ps (historyInv_reset .empty)

end Sys2Proof.Proofs

/-! ## Proofs: who acts on the registers and flags, and on what they depend -/

namespace Sys2Proof.Proofs

open Sys2Proof.Machine Sys2Proof.Safety Sys2Proof.Laws

/-! ### The command port (R40, R202) -/

/-- A busy core does not look at its command port. -/
theorem edge_busy_congr {p q : PortIn} {s : State} (hr : p.rst = q.rst) (hp : s.phase ≠ .idle) :
    edge p s = edge q s := by
  cases h : s.phase with
  | idle => exact absurd h hp
  | keygen => simp [edge, hr, h]
  | crypt => simp [edge, hr, h]

/-- Inputs that are not accepted have one outcome. -/
theorem edge_congr_of_not_accepted {p q : PortIn} {s : State} (hr : p.rst = q.rst) (hp : acceptedAt p s = false)
    (hq : acceptedAt q s = false) : edge p s = edge q s := by
  by_cases hs : s.phase = .idle
  · cases h : q.rst with
    | true => rw [edge_reset (hr.trans h), edge_reset h]
    | false => rw [edge_hold (hr.trans h) hs hp, edge_hold h hs hq]
  · exact edge_busy_congr hr hs

/-- Settles O4: acceptance runs the command, and what is not accepted is not looked at; without acceptance or reset no
edge writes `ERR` or `ECODE`. -/
theorem commandPortActsOnlyWhenAccepted : Obligations.CommandPortActsOnlyWhenAccepted := by
  refine ⟨fun p s => edge_accept, fun p q s => edge_congr_of_not_accepted, fun p s t hr hready h => ?_⟩
  have hna : acceptedAt p s = false := by simp [acceptedAt, hready]
  obtain ⟨hr', -⟩ | ⟨-, -, i, -, rfl⟩ | ⟨-, -, i, -, rfl⟩ | ⟨-, -, -, rfl⟩ | ⟨-, -, -, ha, -⟩ := edge_cases h
  · simp [hr] at hr'
  · exact ⟨keygenAt_err i s, keygenAt_ecode i s⟩
  · exact ⟨roundAt_err i s, roundAt_ecode i s⟩
  · exact ⟨rfl, rfl⟩
  · simp [hna] at ha

/-! ### `DOUT` (R23) -/

/-- Settles O24: of the nine things an edge can do, only three change `DOUT`. -/
theorem doutWrittenOnlyByLastRoundClrAndReset : Obligations.DoutWrittenOnlyByLastRoundClrAndReset := by
  refine ⟨fun p s t h hne => ?_, fun s => rfl⟩
  cases edgeEffect_of_edge h with
  | reset hr => exact .inr (.inr ⟨hr, rfl⟩)
  | clr ha hi => exact .inr (.inl ⟨ha, hi, rfl⟩)
  | round i hr hp hn =>
    have hl : isLastRound i = true := by
      by_contra hl
      simp [hl] at hne
    exact .inl ⟨hr, hp, (rnd_eq_sixteen_iff hn).mpr hl, by simp [hl], by simp [hl]⟩
  | keygen i => exact absurd (keygenAt_dout i s) hne
  | hold => exact absurd rfl hne
  | nop => exact absurd rfl hne
  | ldkey => exact absurd rfl hne
  | block => exact absurd rfl hne
  | fault => exact absurd rfl hne

/-! ### The round-key file (R25) -/

/-- Key-generation step `i + 1` writes register `i + 1` only, from the halves it leaves. -/
theorem keygenAt_writes_one_key (i : Fin 16) (s : State) :
    (∀ j : Fin 16, j ≠ i → (keygenAt i s).rk[j] = s.rk[j]) ∧
      (keygenAt i s).rk[i] = roundKeyOf ((keygenAt i s).c, (keygenAt i s).d) := by
  refine ⟨fun j hj => ?_, by simp [rotateHalves]⟩
  have hv : i.val ≠ j.val := fun e => hj (Fin.ext e.symm)
  simp [hv]

/-- The schedule does not decide what else a key-generation step writes. -/
theorem keygenAt_ignores_rk (i : Fin 16) (s : State) (ks : Schedule) :
    { keygenAt i { s with rk := ks } with rk := (keygenAt i s).rk } = keygenAt i s := by
  apply state_ext <;> simp

/-- A round reads one register of the schedule. -/
theorem roundAt_reads_one_key {i : Fin 16} {s : State} {ks : Schedule}
    (hk : roundKeyAt ks s.decr i = roundKeyAt s.rk s.decr i) :
    { roundAt i { s with rk := ks } with rk := (roundAt i s).rk } = roundAt i s := by
  apply state_ext <;> simp [hk]

/-- The schedule does not decide what else an accepted command writes. -/
theorem acceptedState_ignores_rk (i : Instr) (s : State) (ks : Schedule) :
    { acceptedState i { s with rk := ks } with rk := (acceptedState i s).rk } = acceptedState i s := by
  have hblock (w b) : { acceptBlock w b { s with rk := ks } with rk := (acceptBlock w b s).rk } = acceptBlock w b s := by
    obtain hk | hk := Bool.eq_false_or_eq_true s.keyValid
    · rw [acceptBlock_valid hk, acceptBlock_valid (s := { s with rk := ks }) hk]
      rfl
    · rw [acceptBlock_invalid hk, acceptBlock_invalid (s := { s with rk := ks }) hk]
      rfl
  cases i with
  | enc b => exact hblock false b
  | dec b => exact hblock true b
  | nop => rfl
  | ldkey k => rfl
  | clr => rfl
  | rsvd5 => rfl
  | rsvd6 => rfl
  | rsvd7 => rfl

/-- Settles O25: the writers by the nine effects of an edge, the readers by the cases of the edge on both schedules. -/
theorem roundKeyFileWritersAndReaders : Obligations.RoundKeyFileWritersAndReaders := by
  refine ⟨fun p s t h hne => ?_, fun p s t ks h hread => ?_, fun s ks => rfl⟩
  · cases edgeEffect_of_edge h with
    | reset hr => exact .inr (.inr hr)
    | clr ha hi => exact .inr (.inl ⟨ha, hi⟩)
    | keygen i hr hp hn =>
      obtain ⟨hkeep, hwrite⟩ := keygenAt_writes_one_key i s
      exact .inl ⟨hr, hp, i, hn, hkeep, hwrite, fun hi => by rw [keygenAt_rnd, nextRnd_val_of_lt hi]⟩
    | round i => exact absurd (roundAt_rk i s) hne
    | hold => exact absurd rfl hne
    | nop => exact absurd rfl hne
    | ldkey => exact absurd rfl hne
    | block => exact absurd rfl hne
    | fault => exact absurd rfl hne
  · obtain ⟨hr, rfl⟩ | ⟨hr, hp, i, hn, rfl⟩ | ⟨hr, hp, i, hn, rfl⟩ | ⟨hr, hp, ha, rfl⟩ | ⟨-, -, -, ha, rfl⟩ :=
      edge_cases h
    · exact ⟨_, edge_reset hr, rfl⟩
    · exact ⟨_, edge_keygen hr hp hn, keygenAt_ignores_rk i s ks⟩
    · have hk : roundKeyAt ks s.decr i = roundKeyAt s.rk s.decr i := by
        obtain ⟨henc, hdec⟩ := hread hr hp i i.rev hn (by simp only [Fin.val_rev]; omega)
        cases hd : s.decr with
        | false => exact henc hd
        | true => exact hdec hd
      exact ⟨_, edge_crypt hr hp hn, roundAt_reads_one_key hk⟩
    · exact ⟨_, edge_hold hr hp ha, rfl⟩
    · exact ⟨_, edge_accepted (s := { s with rk := ks }) ha, acceptedState_ignores_rk _ s ks⟩

/-! ### `KEY_VALID`, `DONE`, `ERR` and `ECODE` after an edge (R33, R34, R36) -/

/-- An accepted `ENC` or `DEC` records a fault exactly when there is no schedule. -/
theorem acceptBlock_err {s : State} (w : Bool) (b : Block) (he : s.err = false) :
    (acceptBlock w b s).err = !s.keyValid := by
  cases hk : s.keyValid with
  | true => rw [acceptBlock_valid hk, startCrypt_err, he]; rfl
  | false => rw [acceptBlock_invalid hk, raiseFault_err]; rfl

/-- A command that faults is neither `LDKEY` nor `CLR`, and no block command with a schedule. -/
theorem raisesFault_excludes {i : Instr} {s : State} (hf : raisesFault i s = true) :
    (∀ k, i ≠ .ldkey k) ∧ i ≠ .clr ∧ (s.keyValid = true → ∀ b, i ≠ .enc b ∧ i ≠ .dec b) := by
  cases i <;> simp_all [raisesFault]

/-- Settles O26: one line of the rule for each effect of an edge. -/
theorem keyValidRule : Obligations.KeyValidRule := by
  refine ⟨fun p s t h => ?_, fun i b s t hi hready h => ?_, fun s => rfl⟩
  · cases edgeEffect_of_edge h with
    | reset hr => simp [hr]
    | keygen i hr hp hn =>
      have ha : acceptedAt p s = false := not_accepted_of_busy (by simp [hp])
      cases hl : isLastRound i <;> simp [hr, hp, ha, hl, rnd_eq_sixteen_iff hn]
    | round i hr hp hn =>
      have ha : acceptedAt p s = false := not_accepted_of_busy (by simp [hp])
      simp [hr, hp, ha]
    | hold hr hp ha => simp [hr, hp, ha]
    | nop ha hi => simp [hi, acceptedAt_iff.mp ha]
    | ldkey k ha hi => simp [ha, hi, acceptedAt_iff.mp ha]
    | block w b ha hi => cases w <;> simp [hi, acceptedAt_iff.mp ha]
    | clr ha hi => simp [ha, hi, acceptedAt_iff.mp ha]
    | fault code ha hf =>
      obtain ⟨hldkey, hclr, -⟩ := raisesFault_excludes hf
      simp [hldkey, hclr, acceptedAt_iff.mp ha]
  · obtain ⟨hp, he⟩ := (cmdReady_iff s).mp hready
    rw [exec_eq_accept, accept_ready hready] at h
    cases h
    obtain rfl | rfl := hi
    · exact acceptBlock_err false b he
    · exact acceptBlock_err true b he

/-- Settles O27: one line of the rule for each effect of an edge. -/
theorem doneRule : Obligations.DoneRule := by
  refine ⟨fun p s t h => ?_, fun p s t h hr hp hn => ?_, fun s => rfl⟩
  · cases edgeEffect_of_edge h with
    | reset hr => simp [hr]
    | keygen i hr hp hn =>
      have ha : acceptedAt p s = false := not_accepted_of_busy (by simp [hp])
      simp [hr, hp, ha]
    | round i hr hp hn =>
      have ha : acceptedAt p s = false := not_accepted_of_busy (by simp [hp])
      cases hl : isLastRound i <;> simp [hr, hp, ha, hl, rnd_eq_sixteen_iff hn]
    | hold hr hp ha => simp [hr, hp, ha]
    | nop ha hi => simp [hi, acceptedAt_iff.mp ha]
    | ldkey k ha hi => simp [hi, acceptedAt_iff.mp ha]
    | block w b ha hi hk => cases w <;> simp [ha, hi, hk, acceptedAt_iff.mp ha]
    | clr ha hi => simp [ha, hi, acceptedAt_iff.mp ha]
    | fault code ha hf =>
      obtain ⟨-, hclr, hblock⟩ := raisesFault_excludes hf
      cases hk : s.keyValid with
      | false => simp [hclr, acceptedAt_iff.mp ha]
      | true => simp [hclr, hblock hk, acceptedAt_iff.mp ha]
  · obtain rfl : t = roundAt 15 s := by
      have h' := edge_crypt (i := 15) hr hp (by simp [hn])
      exact Host.Outcome.next.inj (h.symm.trans h')
    simp [isLastRound, outputOf, feistelRound]

/-- Settles O29: a fault is what an accepted faulting command does, and no other effect but reset writes `ERR` or
`ECODE`. -/
theorem errorFlagsRule : Obligations.ErrorFlagsRule := by
  refine ⟨fun p s t h => ?_, fun s => ⟨rfl, rfl⟩, rfl, rfl, rfl⟩
  cases edgeEffect_of_edge h with
  | reset hr =>
    have hf := not_faulting_of_not_accepted (not_accepted_of_rst (s := s) hr)
    simp [hr, hf]
  | keygen i hr hp hn =>
    have hf := not_faulting_of_not_accepted (not_accepted_of_busy (p := p) (s := s) (by simp [hp]))
    simp [hr, hf]
  | round i hr hp hn =>
    have hf := not_faulting_of_not_accepted (not_accepted_of_busy (p := p) (s := s) (by simp [hp]))
    simp [hr, hf]
  | hold hr hp ha => simp [hr, not_faulting_of_not_accepted ha]
  | nop ha hi => simp [(acceptedAt_iff.mp ha).1, faultingAt, hi, raisesFault]
  | ldkey k ha hi => simp [(acceptedAt_iff.mp ha).1, faultingAt, hi, raisesFault]
  | block w b ha hi hk => simp [(acceptedAt_iff.mp ha).1, faultingAt, hi, raisesFault_blockCommand, hk]
  | clr ha hi => simp [(acceptedAt_iff.mp ha).1, faultingAt, hi, raisesFault]
  | fault code ha hf hc =>
    obtain ⟨hr, -, -, he⟩ := acceptedAt_iff.mp ha
    simp [hr, he, faultingAt, ha, hf, hc]

/-! ### No flag, phase or round index depends on data (R37) -/

/-- The control part after a key-generation step, from the control part before it. -/
theorem controlOf_keygenAt (i : Fin 16) (s : State) :
    controlOf (keygenAt i s) = (nextRnd i, if isLastRound i then .idle else s.phase, s.decr,
      isLastRound i || s.keyValid, s.isDone, s.err, s.ecode) := by simp [controlOf]

/-- The control part after a round, from the control part before it. -/
theorem controlOf_roundAt (i : Fin 16) (s : State) :
    controlOf (roundAt i s) = (nextRnd i, if isLastRound i then .idle else s.phase, s.decr, s.keyValid,
      isLastRound i || s.isDone, s.err, s.ecode) := by simp [controlOf]

section TwoCores

variable {s s' : State} (hs : controlOf s = controlOf s')
include hs

/-- States that agree in their control parts agree in each element of it. -/
theorem controlOf_fields : s.rnd = s'.rnd ∧ s.phase = s'.phase ∧ s.decr = s'.decr ∧ s.keyValid = s'.keyValid ∧
    s.isDone = s'.isDone ∧ s.err = s'.err ∧ s.ecode = s'.ecode := by simpa [controlOf] using hs

/-- `ENC` and `DEC` start or fault whatever the block. -/
theorem controlOf_acceptBlock (w : Bool) (b b' : Block) :
    controlOf (acceptBlock w b' s') = controlOf (acceptBlock w b s) := by
  obtain ⟨hrnd, hphase, hdecr, hkv, hdone, herr, hcode⟩ := controlOf_fields hs
  cases hk : s.keyValid with
  | true =>
    rw [acceptBlock_valid hk, acceptBlock_valid (hkv ▸ hk)]
    simp [controlOf, hkv, herr, hcode]
  | false =>
    rw [acceptBlock_invalid hk, acceptBlock_invalid (hkv ▸ hk)]
    simp [controlOf, hrnd, hphase, hdecr, hkv, hdone]

/-- The opcode bits alone say what an accepted command does to the control part. -/
theorem controlOf_acceptedState_decodeOp (x y z : Bool) (v v' : BitVec 64) :
    controlOf (acceptedState (decodeOp x y z v') s') = controlOf (acceptedState (decodeOp x y z v) s) := by
  obtain ⟨hrnd, hphase, hdecr, hkv, hdone, herr, hcode⟩ := controlOf_fields hs
  have hfault : controlOf (raiseFault .rsvdOp s') = controlOf (raiseFault .rsvdOp s) := by
    simp [controlOf, hrnd, hphase, hdecr, hkv, hdone]
  match x, y, z with
  | false, false, false => exact hs.symm
  | false, false, true => simp [decodeOp, acceptedState, controlOf, hdecr, hdone, herr, hcode]
  | false, true, false => exact controlOf_acceptBlock hs false v v'
  | false, true, true => exact controlOf_acceptBlock hs true v v'
  | true, false, false => simp [decodeOp, acceptedState, controlOf, hrnd, hphase, herr, hcode]
  | true, false, true => exact hfault
  | true, true, false => exact hfault
  | true, true, true => exact hfault

/-- Words with the same opcode do the same to the control part. -/
theorem controlOf_acceptedState {v w : CmdWord} (hop : opField v = opField w) :
    controlOf (acceptedState (decodeWord w) s') = controlOf (acceptedState (decodeWord v) s) := by
  rw [decodeWord, decodeWord, hop]
  exact controlOf_acceptedState_decodeOp hs _ _ _ _ _

/-- The control part decides acceptance. -/
theorem acceptedAt_congr {p q : PortIn} (hpq : SameExceptOperand p q) : acceptedAt q s' = acceptedAt p s := by
  obtain ⟨hr, hv, -⟩ := hpq
  obtain ⟨-, hphase, -, -, -, herr, -⟩ := controlOf_fields hs
  simp [acceptedAt, cmdReady, hr, hv, hphase, herr]

end TwoCores

/-- Settles O30: the second core's edge falls into the same case of R170 as the first one's. -/
theorem controlIgnoresData : Obligations.ControlIgnoresData := by
  intro p q s s' t hs hpq h
  have haccept := acceptedAt_congr hs hpq
  obtain ⟨hrst, -, hop⟩ := hpq
  obtain ⟨hrnd, hphase, hdecr, hkv, hdone, herr, hcode⟩ := controlOf_fields hs
  obtain ⟨hr, rfl⟩ | ⟨hr, hp, i, hn, rfl⟩ | ⟨hr, hp, i, hn, rfl⟩ | ⟨hr, hp, ha, rfl⟩ | ⟨-, -, -, ha, rfl⟩ := edge_cases h
  · exact ⟨_, edge_reset (hrst ▸ hr), rfl⟩
  · refine ⟨_, edge_keygen (hrst ▸ hr) (hphase ▸ hp) (hrnd ▸ hn), ?_⟩
    rw [controlOf_keygenAt, controlOf_keygenAt, hphase, hdecr, hkv, hdone, herr, hcode]
  · refine ⟨_, edge_crypt (hrst ▸ hr) (hphase ▸ hp) (hrnd ▸ hn), ?_⟩
    rw [controlOf_roundAt, controlOf_roundAt, hphase, hdecr, hkv, hdone, herr, hcode]
  · exact ⟨_, edge_hold (hrst ▸ hr) (hphase ▸ hp) (haccept.trans ha), hs.symm⟩
  · exact ⟨_, edge_accepted (haccept.trans ha), controlOf_acceptedState hs hop⟩

end Sys2Proof.Proofs

/-! ## Proofs: command words, their fields and the opcode map (R70 to R76) -/

namespace Sys2Proof.Proofs

open Sys2Proof.Laws

/-! ### A word is its opcode and its operand field (R70) -/

@[simp] theorem opField_append (op : BitVec 3) (v : BitVec 64) : opField (op ++ v) = op :=
  BitVec.extractLsb'_append_eq_left

@[simp] theorem immField_append (op : BitVec 3) (v : BitVec 64) : immField (op ++ v) = v :=
  BitVec.extractLsb'_append_eq_right

/-- No bit of a word lies outside its two fields. -/
theorem opField_append_immField (w : CmdWord) : opField w ++ immField w = w := by
  rw [opField, immField, BitVec.extractLsb'_append_extractLsb'_eq_extractLsb' (by decide : 64 = 0 + 64)]
  exact BitVec.extractLsb'_eq_self

/-- The decoder on a word given by its fields. -/
theorem decodeWord_append (op : BitVec 3) (v : BitVec 64) :
    decodeWord (op ++ v) = decodeOp (op.getLsbD 2) (op.getLsbD 1) (op.getLsbD 0) v := by
  rw [decodeWord, opField_append, immField_append]

/-- Settles O43: each of the eight opcodes selects its arm of the decoder, which takes the operand field or drops it. -/
theorem operandIsUsedAsPresented : Obligations.OperandIsUsedAsPresented := by
  intro v
  refine ⟨?_, ?_, ?_, ?_, ?_, ?_, ?_, ?_, immField_append _ _, immField_append _ _⟩ <;>
    simp [decodeWord_append, decodeOp]

/-! ### Three bits select the command (R71, R76) -/

/-- Decoding the opcode and the operand of a command gives it back. -/
theorem decodeWord_encode (i : Instr) : decodeWord (encode i) = i := by
  rw [encode, decodeWord_append]
  cases i <;> simp [Instr.opcode, Instr.operand, decodeOp]

/-- The opcode of a decoded command is made of the bits that selected it. -/
theorem opcode_decodeOp (x y z : Bool) (v : BitVec 64) :
    (decodeOp x y z v).opcode = BitVec.ofBool x ++ BitVec.ofBool y ++ BitVec.ofBool z := by
  unfold decodeOp
  split <;> rfl

/-- An opcode is its three bits, bit 2 first. -/
theorem ofBool_append_getLsbD : ∀ op : BitVec 3,
    BitVec.ofBool (op.getLsbD 2) ++ BitVec.ofBool (op.getLsbD 1) ++ BitVec.ofBool (op.getLsbD 0) = op := by decide

/-- A decoded word keeps its opcode. -/
theorem opcode_decodeWord (w : CmdWord) : (decodeWord w).opcode = opField w := by
  rw [decodeWord, opcode_decodeOp, ofBool_append_getLsbD]

/-- The operand has no part in selecting the command. -/
theorem mnemonic_decodeOp (x y z : Bool) (u v : BitVec 64) :
    (decodeOp x y z u).mnemonic = (decodeOp x y z v).mnemonic := by
  unfold decodeOp
  split <;> rfl

/-- The opcode bits of a word select the command, whatever its operand field. -/
theorem mnemonic_decodeWord_of_opField {w v : CmdWord} (h : opField w = opField v) :
    (decodeWord w).mnemonic = (decodeWord v).mnemonic := by
  rw [decodeWord, decodeWord, h]
  exact mnemonic_decodeOp _ _ _ _ _

/-- Settles O41: the decoder reads back what the encoder wrote, field by field. -/
theorem encodeThenDecodeIsIdentity : Obligations.EncodeThenDecodeIsIdentity := by
  refine ⟨fun i _ => decodeWord_encode i, fun w => ?_, fun w v => mnemonic_decodeWord_of_opField⟩
  rw [encode, opcode_decodeWord]

/-! ### The opcode map of R71 -/

/-- The mask of every row drops the operand field of a word. -/
theorem selects_append {row : OpcodeRow} (h : row ∈ opcodeRows) (op : BitVec 3) (v : BitVec 64) :
    row.selects (op ++ v) = row.selects (op ++ 0#64) := by
  have hmask : row.mask = 0x70000000000000000#67 :=
    (by decide : ∀ row ∈ opcodeRows, row.mask = 0x70000000000000000#67) row h
  simp only [OpcodeRow.selects, hmask, RowMatch.mask_append]

/-- Each of the eight opcodes, with zeros for the operand, selects one row, that of its command. -/
theorem opcodeRows_filter_selects : ∀ op : BitVec 3,
    (opcodeRows.filter (fun row => row.selects (op ++ 0#64))).map (fun row => row.mnemonic) =
      [(decodeWord (op ++ 0#64)).mnemonic] := by decide

/-- Settles O42: neither the rows nor the decoder look at the operand field, so the eight opcodes are all there is. -/
theorem everyWordSelectsExactlyOneRow : Obligations.EveryWordSelectsExactlyOneRow := by
  intro w
  have hrows : opcodeRows.filter (fun row => row.selects w) =
      opcodeRows.filter (fun row => row.selects (opField w ++ 0#64)) :=
    List.filter_congr fun row hrow => by
      rw [← selects_append hrow _ (immField w), opField_append_immField]
  have hmnemonic : (decodeWord w).mnemonic = (decodeWord (opField w ++ 0#64)).mnemonic :=
    mnemonic_decodeWord_of_opField (opField_append _ _).symm
  rw [hrows, hmnemonic, opcodeRows_filter_selects]

end Sys2Proof.Proofs

/-! ## Proofs: a running command is sixteen states in a row (R173, R174, R177 to R179) -/

namespace Sys2Proof.Proofs

open Sys2Proof.Machine Sys2Proof.Safety Sys2Proof.Laws

/-- `RND` after round `i + 1`, counted modulo 17. -/
theorem nextRnd_eq_ofNat : ∀ i : Fin 16, nextRnd i = Fin.ofNat 17 (i.val + 2) := by decide

/-- Round `i + 1` is the last one when it is the sixteenth. -/
theorem isLastRound_eq_decide : ∀ i : Fin 16, isLastRound i = decide (i.val + 1 = 16) := by decide

/-! ### Key generation -/

/-- `LDKEY k` accepted in state `s`, after `n` key-generation steps (R173): the first `n` round keys are written, and the
sixteenth step is the last. -/
def keygenState (k : Key) (s : State) (n : Nat) : State :=
  { s with
    c := (keyHalvesAfter k n).1, d := (keyHalvesAfter k n).2,
    rk := Vector.ofFn (fun j => if j.val < n then (keySchedule k)[j] else s.rk[j]),
    keyValid := decide (n = 16), phase := if n = 16 then .idle else .keygen, rnd := Fin.ofNat 17 (n + 1) }

theorem keygenState_zero (k : Key) (s : State) : keygenState k s 0 = startKeygen k s := by
  apply state_ext
  case hn => rfl
  all_goals simp [keygenState, keyHalvesAfter, initialKeyHalves]

theorem keygenState_sixteen (k : Key) (s : State) : keygenState k s 16 = loadKeyWhole k s := by
  apply state_ext <;> simp [keygenState, keyHalvesAfter_sixteen, initialKeyHalves]

theorem keygenState_rk_getElem (k : Key) (s : State) (n : Nat) {j : Nat} (hj : j < 16) :
    (keygenState k s n).rk[j] = if j < n then (keySchedule k)[j] else s.rk[j] := by
  rw [keygenState, Vector.getElem_ofFn]
  rfl

/-- Key-generation step `i + 1` adds its round key to the ones written. -/
theorem keygenAt_keygenState_rk (k : Key) (s : State) (i : Fin 16) :
    (keygenAt i (keygenState k s i.val)).rk = (keygenState k s (i.val + 1)).rk := by
  have hhalves : rotateHalves ((keygenState k s i.val).c, (keygenState k s i.val).d) shiftTable[i] =
      keyHalvesAfter k (i.val + 1) := (keyHalvesAfter_succ k i).symm
  rw [keygenAt_rk, hhalves, ← keySchedule_getElem]
  ext1 j hj
  rw [Vector.getElem_set, keygenState_rk_getElem, keygenState_rk_getElem]
  by_cases hij : i.val = j
  · subst hij
    rw [if_pos rfl, if_pos (Nat.lt_succ_self _)]
    rfl
  · rw [if_neg hij]
    simp only [show j < i.val + 1 ↔ j < i.val by omega]

theorem keygenAt_keygenState (k : Key) (s : State) (i : Fin 16) :
    keygenAt i (keygenState k s i.val) = keygenState k s (i.val + 1) := by
  have hne : i.val ≠ 16 := by omega
  apply state_ext
  case hk => exact keygenAt_keygenState_rk k s i
  all_goals
    simp [keygenState, keyHalvesAfter_succ, rotateHalves, nextRnd_eq_ofNat, isLastRound_eq_decide, hne]

/-- A core that generates round keys goes on at every edge without reset. -/
theorem edge_keygenState {p : PortIn} (hr : p.rst = false) (k : Key) (s : State) {n : Nat} (hn : n < 16) :
    edge p (keygenState k s n) = .next (keygenState k s (n + 1)) := by
  rw [← keygenAt_keygenState k s ⟨n, hn⟩]
  exact edge_keygen hr (by simp [keygenState, hn.ne]) (Nat.mod_eq_of_lt (by omega))

/-! ### The rounds -/

/-- `ENC b` or `DEC b` accepted in state `s`, after `n` rounds (R177). -/
def roundState (w : Bool) (b : Block) (s : State) (n : Nat) : State :=
  { s with
    l := (halvesAfter b s.rk w n).1, r := (halvesAfter b s.rk w n).2, decr := w,
    dout := if n = 16 then crypt b s.rk w else s.dout, isDone := decide (n = 16),
    phase := if n = 16 then .idle else .crypt, rnd := Fin.ofNat 17 (n + 1) }

theorem roundState_zero (w : Bool) (b : Block) (s : State) : roundState w b s 0 = startCrypt w b s := by
  apply state_ext
  case hn => rfl
  all_goals simp [roundState, halvesAfter, initialHalves]

theorem roundState_sixteen {w : Bool} {b : Block} {s : State} (hk : s.keyValid = true) :
    roundState w b s 16 = cryptWhole w b s := by
  simp [roundState, cryptWhole, hk]

/-- The last round turns the halves into the output block. -/
theorem roundAt_roundState_dout (w : Bool) (b : Block) (s : State) (i : Fin 16) :
    (roundAt i (roundState w b s i.val)).dout = (roundState w b s (i.val + 1)).dout := by
  have hne : i.val ≠ 16 := by omega
  have hhalves : feistelRound ((roundState w b s i.val).l, (roundState w b s i.val).r)
      (roundKeyAt (roundState w b s i.val).rk (roundState w b s i.val).decr i) = halvesAfter b s.rk w (i.val + 1) :=
    (halvesAfter_succ b s.rk w i).symm
  rw [roundAt_dout, hhalves]
  simp only [roundState, isLastRound_eq_decide, decide_eq_true_eq, if_neg hne]
  by_cases hl : i.val + 1 = 16
  · rw [if_pos hl, if_pos hl, hl, crypt]
  · rw [if_neg hl, if_neg hl]

theorem roundAt_roundState (w : Bool) (b : Block) (s : State) (i : Fin 16) :
    roundAt i (roundState w b s i.val) = roundState w b s (i.val + 1) := by
  have hne : i.val ≠ 16 := by omega
  apply state_ext
  case ho => exact roundAt_roundState_dout w b s i
  all_goals simp [roundState, halvesAfter_succ, feistelRound, nextRnd_eq_ofNat, isLastRound_eq_decide, hne]

/-- A core that runs a block goes on at every edge without reset. -/
theorem edge_roundState {p : PortIn} (hr : p.rst = false) (w : Bool) (b : Block) (s : State) {n : Nat} (hn : n < 16) :
    edge p (roundState w b s n) = .next (roundState w b s (n + 1)) := by
  rw [← roundAt_roundState w b s ⟨n, hn⟩]
  exact edge_crypt hr (by simp [roundState, hn.ne]) (Nat.mod_eq_of_lt (by omega))

/-! ### Waiting for the end of a command (R77) -/

/-- A host that waits through `n` edges at which it must wait comes to the state after them. -/
theorem waitFor_of_busy {ready : State → Bool} {f : Nat → State} (n : Nat) (hbusy : ∀ i < n, ready (f i) = false)
    (hedge : ∀ i < n, edge idlePort (f i) = .next (f (i + 1))) : waitFor ready n (f 0) = .next (f n) := by
  induction n generalizing f with
  | zero => rfl
  | succ n ih =>
    have hrest : waitFor ready n (f 1) = .next (f (n + 1)) :=
      ih (f := fun i => f (i + 1)) (fun i hi => hbusy (i + 1) (by omega)) (fun i hi => hedge (i + 1) (by omega))
    simp [waitFor, hbusy 0, hedge 0, hrest]

/-- `ComesReady ready s t`: a host that waits in state `s` goes on in state `t`. -/
def ComesReady (ready : State → Bool) (s t : State) : Prop :=
  waitFor ready waitBound s = .next t ∧ ready t = true

/-- Nothing is waited for when the core is ready. -/
theorem ComesReady.refl {ready : State → Bool} {s : State} (h : ready s = true) : ComesReady ready s s :=
  ⟨by simp [waitBound, waitFor, h], h⟩

/-- A wait of sixteen edges, in states that are not ready. -/
theorem ComesReady.of_busy {ready : State → Bool} {f : Nat → State} (hbusy : ∀ i < 16, ready (f i) = false)
    (hedge : ∀ i < 16, edge idlePort (f i) = .next (f (i + 1))) (h : ready (f 16) = true) :
    ComesReady ready (f 0) (f 16) :=
  ⟨waitFor_of_busy 16 hbusy hedge, h⟩

theorem ComesReady.whenReady_eq {ready : State → Bool} {s t : State} (h : ComesReady ready s t)
    (act : State → ScriptRun) : whenReady ready act s = act t := by
  obtain ⟨hwait, hready⟩ := h
  simp [whenReady, hwait, hready]

/-- After `LDKEY` is accepted the core comes ready with the key loaded (R174). -/
theorem comesReady_startKeygen {k : Key} {s : State} (he : s.err = false) :
    ComesReady cmdReady (startKeygen k s) (loadKeyWhole k s) := by
  rw [← keygenState_zero, ← keygenState_sixteen]
  exact .of_busy (fun i hi => by simp [cmdReady, keygenState, hi.ne]) (fun i => edge_keygenState rfl k s)
    (by simp [cmdReady, keygenState, he])

/-- After `ENC` or `DEC` is accepted as work `out_valid` comes, with the block transformed (R178, R179). -/
theorem comesReady_startCrypt {w : Bool} {b : Block} {s : State} (hk : s.keyValid = true) :
    ComesReady (fun t => t.isDone) (startCrypt w b s) (cryptWhole w b s) := by
  rw [← roundState_zero, ← roundState_sixteen hk]
  exact .of_busy (fun i hi => by simp [roundState, hi.ne]) (fun i => edge_roundState rfl w b s) (by simp [roundState])

/-! ### Script statements (R77) -/

/-- A command statement waits for a ready core, which accepts the command. -/
theorem runStmt_command {s t : State} (h : ComesReady cmdReady s t) (i : Instr) :
    runStmt (.command i) s = .finished (acceptedState i t) [] := by
  have ⟨_, hready⟩ := h
  obtain ⟨hp, he⟩ := (cmdReady_iff t).mp hready
  have hedge : edge (cmdPort (encode i)) t = .next (acceptedState i t) := by
    rw [edge_accepted (acceptedAt_iff.mpr ⟨rfl, rfl, hp, he⟩), cmdPort, decodeWord_encode]
  simp [runStmt, h.whenReady_eq, oneEdge, hedge]

/-- `READ` waits for a result and yields it. -/
theorem runStmt_read {s t : State} (h : ComesReady (fun t => t.isDone) s t) :
    runStmt .read s = .finished t [t.dout] := h.whenReady_eq _

/-- A statement that completes is followed by the rest of the script. -/
theorem runScript_cons {x : Stmt} {s t : State} {reads : List Block} (h : runStmt x s = .finished t reads)
    (xs : List Stmt) : runScript (x :: xs) s = (runScript xs t).after reads := by
  simp [runScript, h]

/-- A script is over when its one statement completes. -/
theorem runScript_singleton {x : Stmt} {s t : State} {reads : List Block} (h : runStmt x s = .finished t reads) :
    runScript [x] s = .finished t reads := by
  rw [runScript_cons h]
  simp [runScript, ScriptRun.after]

/-! ### The pseudo-instructions (R78) -/

/-- A ready core that meets the control invariant and holds the schedule `ks`, with `inputs` still to come: what every
part of a pseudo-instruction keeps, from its `LDKEY` to its `CLR`. -/
structure ReadyWith (ks : Schedule) (inputs : List PortIn) (s : State) : Prop where
  ready : cmdReady s = true
  control : ControlInv s
  keyValid : s.keyValid = true
  rk : s.rk = ks
  pending : s.pending = inputs

/-- `CLR` in a ready core under the control invariant leaves the reset state (R180). -/
theorem clearData_eq_resetRegs {s : State} (h : ControlInv s) (hready : cmdReady s = true) :
    clearData s = resetRegs s := by
  obtain ⟨hp, he⟩ := (cmdReady_iff s).mp hready
  obtain ⟨hidle, -, -, -, hcode⟩ := h
  apply state_ext <;> simp [hp, he, hidle.mp hp, hcode he]

/-- A core that loaded a key holds its schedule. -/
theorem readyWith_loadKeyWhole {s : State} (h : ControlInv s) (he : s.err = false) (k : Key) :
    ReadyWith (keySchedule k) s.pending (loadKeyWhole k s) := by
  obtain ⟨-, -, -, -, hcode⟩ := h
  exact ⟨by simp [cmdReady, he], by simp [ControlInv, he, hcode he], rfl, rfl, rfl⟩

/-- Transforming a block keeps the schedule and carries nothing to the next block. -/
theorem readyWith_cryptWhole {ks : Schedule} {inputs : List PortIn} {s : State} (h : ReadyWith ks inputs s) (w : Bool)
    (b : Block) : ReadyWith ks inputs (cryptWhole w b s) := by
  obtain ⟨hready, ⟨-, -, -, -, hcode⟩, hkv, rfl, rfl⟩ := h
  obtain ⟨-, he⟩ := (cmdReady_iff s).mp hready
  rw [← roundState_sixteen hkv]
  exact ⟨by simp [roundState, cmdReady, he], by simp [roundState, ControlInv, he, hcode he], hkv, rfl, rfl⟩

/-- A transformed block is that of the schedule (R135). -/
theorem cryptWhole_dout {w : Bool} {b : Block} {s : State} (hk : s.keyValid = true) :
    (cryptWhole w b s).dout = crypt b s.rk w := by simp [cryptWhole, hk]

/-- `ENC b1 ; READ ; .. ; ENC bn ; READ ; CLR`, or the same with `DEC`: a pseudo-instruction after its `LDKEY`. -/
def transformCall (w : Bool) (bs : List Block) : List Stmt :=
  bs.flatMap (fun b => [.command (blockCommand w b), .read]) ++ [.command .clr]

theorem transformCall_cons (w : Bool) (b : Block) (bs : List Block) :
    transformCall w (b :: bs) = .command (blockCommand w b) :: .read :: transformCall w bs := rfl

/-- From a core that comes ready with a schedule, every block is transformed with it and read, in order. -/
theorem runScript_transformCall {w : Bool} {ks : Schedule} {inputs : List PortIn} (bs : List Block) {s t : State}
    (hwait : ComesReady cmdReady s t) (h : ReadyWith ks inputs t) :
    runScript (transformCall w bs) s =
      .finished { State.reset with pending := inputs } (bs.map (fun b => crypt b ks w)) := by
  induction bs generalizing s t with
  | nil =>
    have hclr : acceptedState .clr t = { State.reset with pending := inputs } := by
      rw [← h.pending]
      exact clearData_eq_resetRegs h.control h.ready
    exact runScript_singleton (hclr ▸ runStmt_command hwait .clr)
  | cons b bs ih =>
    have hnext := readyWith_cryptWhole h w b
    have hdout : (cryptWhole w b t).dout = crypt b ks w := by rw [cryptWhole_dout h.keyValid, h.rk]
    have hcommand : runStmt (.command (blockCommand w b)) s = .finished (startCrypt w b t) [] := by
      rw [runStmt_command hwait, acceptedState_blockCommand, acceptBlock_valid h.keyValid]
    rw [transformCall_cons, runScript_cons hcommand, runScript_cons (runStmt_read (comesReady_startCrypt h.keyValid)),
      ih (.refl hnext.ready) hnext, hdout]
    rfl

/-- A key is loaded, and every block is transformed with its schedule. -/
theorem runScript_ldkey_transformCall {s : State} (hc : ControlInv s) (hready : cmdReady s = true) (w : Bool) (k : Key)
    (bs : List Block) :
    runScript (.command (.ldkey k) :: transformCall w bs) s =
      .finished { State.reset with pending := s.pending } (bs.map (fun b => crypt b (keySchedule k) w)) := by
  obtain ⟨-, he⟩ := (cmdReady_iff s).mp hready
  have hload : runStmt (.command (.ldkey k)) s = .finished (startKeygen k s) [] := runStmt_command (.refl hready) _
  rw [runScript_cons hload, runScript_transformCall bs (comesReady_startKeygen he) (readyWith_loadKeyWhole hc he k)]
  rfl

/-- Settles O40, by induction on the list of blocks: every block finds the core ready with the key's schedule. -/
theorem pseudoInstructionsTransformEveryBlock : Obligations.PseudoInstructionsTransformEveryBlock :=
  fun k bs _ hc hready =>
    ⟨runScript_ldkey_transformCall hc hready false k bs, runScript_ldkey_transformCall hc hready true k bs⟩

end Sys2Proof.Proofs

/-! ## Proofs: bit permutations and the tables they read (R90 to R98) -/

namespace Sys2Proof.Proofs

open Sys2Proof.Machine Sys2Proof.Safety Sys2Proof.Laws

/-! ### DES-numbered bits (R13) -/

@[simp] theorem dbit_zero {n : Nat} (i : Nat) : dbit (0 : BitVec n) i = false := BitVec.getLsbD_zero

@[simp] theorem dbit_xor {n : Nat} (a b : BitVec n) (i : Nat) : dbit (a ^^^ b) i = (dbit a i ^^ dbit b i) :=
  BitVec.getLsbD_xor

theorem dbit_not {n i : Nat} (v : BitVec n) (h : 1 ≤ i ∧ i ≤ n) : dbit (~~~v) i = !dbit v i := by
  simp [dbit, show n - i < n by omega]

/-- Values with the same DES bits are equal. -/
theorem eq_of_dbit {n : Nat} {v w : BitVec n} (h : ∀ j < n, dbit v (j + 1) = dbit w (j + 1)) : v = w := by
  apply BitVec.eq_of_getLsbD_eq
  intro i hi
  have hbit := h (n - 1 - i) (by omega)
  rwa [dbit, dbit, show n - (n - 1 - i + 1) = i by omega] at hbit

/-! ### `PERMUTE` reads its table (R14, R90) -/

/-- One more entry is one more bit, the least significant. -/
theorem gather_concat {n : Nat} (t : List Nat) (e : Nat) (v : BitVec n) :
    gather (t ++ [e]) v = Nat.bit (dbit v e) (gather t v) := by
  rw [gather, List.foldl_concat, Nat.bit_val, gather]

/-- Bit `j` of the selected bits, the first entry most significant, is the one that entry `j` names. -/
theorem testBit_gather {n : Nat} (t : List Nat) (v : BitVec n) {j : Nat} (hj : j < t.length) :
    (gather t v).testBit (t.length - (j + 1)) = dbit v t[j] := by
  induction t using List.reverseRecOn with
  | nil => simp at hj
  | append_singleton t e ih =>
    rw [gather_concat]
    rcases Nat.lt_succ_iff_lt_or_eq.mp (by simpa using hj : j < t.length + 1) with hlt | rfl
    · rw [show (t ++ [e]).length - (j + 1) = t.length - (j + 1) + 1 by simp; omega, Nat.testBit_bit_succ, ih hlt,
        List.getElem_append_left hlt]
    · simp

theorem dbit_permute {n m : Nat} {t : List Nat} (hlen : t.length = m) (v : BitVec n) {j : Nat} (hj : j < t.length) :
    dbit (permute m t v) (j + 1) = dbit v t[j] := by
  subst hlen
  rw [dbit, permute, BitVec.getLsbD_ofNat, testBit_gather t v hj]
  simp [show t.length - (j + 1) < t.length by omega]

theorem tableWf_iff {n m : Nat} {t : List Nat} :
    tableWf n m t = true ↔ t.length = m ∧ ∀ e ∈ t, 1 ≤ e ∧ e ≤ n := by simp [tableWf]

/-- `PERMUTE` by a well-formed table (R99) reads it. -/
theorem stageReads_permute {n m : Nat} {t : List Nat} (h : tableWf n m t = true) :
    StageReads (permute (n := n) m t) t := by
  obtain ⟨hlen, hrange⟩ := tableWf_iff.mp h
  exact ⟨hlen, hrange, fun v _ hj => dbit_permute hlen v hj⟩

/-- Every stage reads its table: the tables are well formed (R99). -/
theorem stages_read :
    StageReads ip ipTable ∧ StageReads fp fpTable ∧ StageReads expand eTable ∧ StageReads pPerm pTable ∧
      StageReads pc1 pc1Table ∧ StageReads pc2 pc2Table := by
  have h := tables_wf
  simp only [Bool.and_eq_true, and_assoc] at h
  obtain ⟨hip, hfp, he, hp, hpc1, hpc2⟩ := h
  exact ⟨stageReads_permute hip, stageReads_permute hfp, stageReads_permute he, stageReads_permute hp,
    stageReads_permute hpc1, stageReads_permute hpc2⟩

/-! ### What follows from reading a table (R92, R98) -/

/-- Each output bit is a copy of one input bit, so the stage is linear. -/
theorem xorLinear_of_stageReads {n m : Nat} {f : BitVec n → BitVec m} {t : List Nat} (h : StageReads f t) :
    XorLinear f := by
  obtain ⟨rfl, hrange, hread⟩ := h
  refine ⟨fun a b => eq_of_dbit fun j hj => ?_, eq_of_dbit fun j hj => ?_, fun a => eq_of_dbit fun j hj => ?_⟩
  · rw [dbit_xor, hread _ j hj, hread _ j hj, hread _ j hj, dbit_xor]
  · rw [hread _ j hj, dbit_zero, dbit_zero]
  · rw [hread _ j hj, dbit_not a (hrange _ (List.getElem_mem hj)), dbit_not (f a) (by omega), hread _ j hj]

/-- A stage that reads each bit from where `PERMUTE` by `s` put it undoes that `PERMUTE`. -/
theorem leftInverse_permute {n m : Nat} {g : BitVec m → BitVec n} {s t : List Nat} (hg : StageReads g t)
    (hs : s.length = m) (h : tableInverts n t s = true) : Function.LeftInverse g (permute m s) := by
  obtain ⟨rfl, hrange, hread⟩ := hg
  intro v
  apply eq_of_dbit
  intro j hj
  have hback : s[t[j] - 1]? = some (j + 1) := by
    simpa [hj] using List.all_eq_true.mp h j (List.mem_range.mpr hj)
  obtain ⟨hlt, hentry⟩ := List.getElem?_eq_some_iff.mp hback
  obtain ⟨hpos, -⟩ := hrange _ (List.getElem_mem hj)
  calc dbit (g (permute m s v)) (j + 1)
      = dbit (permute m s v) (t[j] - 1 + 1) := by rw [hread _ j hj, Nat.sub_add_cancel hpos]
    _ = dbit v (j + 1) := by rw [dbit_permute hs v hlt, hentry]

/-- Settles O45: reading bit by bit is `stageReads_permute`, the corner cases are linearity. -/
theorem permuteReadsItsTable : Obligations.PermuteReadsItsTable := by
  intro n m t hlen hrange
  have hreads := stageReads_permute (tableWf_iff.mpr ⟨hlen, hrange⟩)
  obtain ⟨-, hzero, hnot⟩ := xorLinear_of_stageReads hreads
  obtain ⟨-, -, hread⟩ := hreads
  refine ⟨fun v j hj => ⟨hread v j hj, hread v j hj⟩, hzero, ?_⟩
  have hones : permute m t (~~~(0 : BitVec n)) = ~~~0 := by rw [hnot, hzero]
  simpa using hones

/-! ### Which stages are bijective, injective, surjective (R92, R98) -/

theorem ipTable_inverts_fpTable : tableInverts 64 ipTable fpTable = true := by decide

theorem fpTable_inverts_ipTable : tableInverts 64 fpTable ipTable = true := by decide

theorem fp_leftInverse_ip : Function.LeftInverse fp ip := by
  obtain ⟨-, hfp, -⟩ := stages_read
  exact leftInverse_permute hfp rfl fpTable_inverts_ipTable

theorem ip_leftInverse_fp : Function.LeftInverse ip fp := by
  obtain ⟨hip, -⟩ := stages_read
  exact leftInverse_permute hip rfl ipTable_inverts_fpTable

theorem ip_bijective : Function.Bijective ip := ⟨fp_leftInverse_ip.injective, ip_leftInverse_fp.surjective⟩

theorem fp_bijective : Function.Bijective fp := ⟨ip_leftInverse_fp.injective, fp_leftInverse_ip.surjective⟩

/-- The destination lists of `P`, `PC1` and `PC2` (R97) send each output bit back to the input bit it reads. -/
theorem dest_inverts_table :
    tableInverts 32 pTable pDest = true ∧ tableInverts 56 pc1Table pc1Dest = true ∧
      tableInverts 48 pc2Table pc2Dest = true := by
  have h := dest_inverts
  simp only [Bool.and_eq_true, and_assoc] at h
  exact h.2

/-- The destination list of `P` (R97) is the table of its inverse. -/
theorem pPerm_bijective : Function.Bijective pPerm := by
  obtain ⟨-, -, -, hp, -⟩ := stages_read
  obtain ⟨hinvert, -⟩ := dest_inverts_table
  have hinverse : StageReads (permute (n := 32) 32 pDest) pDest := stageReads_permute (by decide)
  have hleft : Function.LeftInverse (permute 32 pDest) pPerm := leftInverse_permute hinverse rfl (by decide)
  have hright : Function.LeftInverse pPerm (permute 32 pDest) := leftInverse_permute hp rfl hinvert
  exact ⟨hleft.injective, hright.surjective⟩

/-- The first of the output bits of `E` that receive each input bit (R97). -/
def eFirstDest : List Nat := eDest.map (fun l => l.headD 0)

/-- `E` drops no bit: reading each one where it first went gives the input back. -/
theorem expand_injective : Function.Injective expand := by
  have hback : StageReads (permute (n := 48) 32 eFirstDest) eFirstDest := stageReads_permute (by decide)
  have hleft : Function.LeftInverse (permute 32 eFirstDest) expand := leftInverse_permute hback rfl (by decide)
  exact hleft.injective

/-- `PC1` of the bits placed where R97 says they are read, zeros in the dropped places, is those bits. -/
theorem pc1_surjective : Function.Surjective pc1 := by
  obtain ⟨-, -, -, -, hpc1, -⟩ := stages_read
  obtain ⟨-, hinvert, -⟩ := dest_inverts_table
  have hright : Function.LeftInverse pc1 (permute 64 pc1Dest) := leftInverse_permute hpc1 rfl hinvert
  exact hright.surjective

theorem pc2_surjective : Function.Surjective pc2 := by
  obtain ⟨-, -, -, -, -, hpc2⟩ := stages_read
  obtain ⟨-, -, hinvert⟩ := dest_inverts_table
  have hright : Function.LeftInverse pc2 (permute 56 pc2Dest) := leftInverse_permute hpc2 rfl hinvert
  exact hright.surjective

/-- A key of parity bits alone is dropped whole (R95). -/
theorem pc1_not_injective : ¬ Function.Injective pc1 := fun h =>
  absurd (h (by decide : pc1 0x0101010101010101 = pc1 0)) (by decide)

/-- A key state of the eight dropped bits alone is dropped whole (R96). -/
theorem pc2_not_injective : ¬ Function.Injective pc2 := fun h =>
  absurd (h (by decide : pc2 0x00804480242004 = pc2 0)) (by decide)

/-- Settles O46: the two tables invert each other entry by entry, so the stages that read them do. -/
theorem finalPermutationInvertsInitial : Obligations.FinalPermutationInvertsInitial := by
  obtain ⟨hip, hfp, -⟩ := stages_read
  exact ⟨hfp, hip, fp_leftInverse_ip, ip_leftInverse_fp, ipTable_inverts_fpTable, fpTable_inverts_ipTable⟩

/-- Settles O47: a stage that reads a table is linear, and the inverses are the destination lists of R97. -/
theorem stagesAreLinear : Obligations.StagesAreLinear := by
  obtain ⟨hip, hfp, he, hp, hpc1, hpc2⟩ := stages_read
  exact ⟨xorLinear_of_stageReads hip, xorLinear_of_stageReads hfp, xorLinear_of_stageReads he,
    xorLinear_of_stageReads hp, xorLinear_of_stageReads hpc1, xorLinear_of_stageReads hpc2,
    ip_bijective, fp_bijective, pPerm_bijective, expand_injective,
    pc1_surjective, pc1_not_injective, pc2_surjective, pc2_not_injective⟩

/-! ### What the rules say of the tables (R91, R93 to R96) -/

/-- The closed form of `IP_TABLE` (R91). -/
theorem ipTable_closed_form {row start col : Nat} (hstart : [58, 60, 62, 64, 57, 59, 61, 63][row]? = some start)
    (hcol : col < 8) : ipTable[8 * row + col]? = some (start - 8 * col) := by
  obtain ⟨hrow, -⟩ := List.getElem?_eq_some_iff.mp hstart
  have hentries : ∀ row < 8, ∀ col < 8, ipTable[8 * row + col]? =
      [58, 60, 62, 64, 57, 59, 61, 63][row]?.map (· - 8 * col) := by decide
  rw [hentries row hrow col hcol, hstart, Option.map_some]

/-- The closed form of `E_TABLE` (R93). -/
theorem eTable_closed_form : ∀ g < 8, ∀ t < 6, eTable[6 * g + t]? = some ((4 * g + 31 + t) % 32 + 1) := by decide

theorem pTable_count : ∀ i < 33, 1 ≤ i → pTable.count i = 1 := by decide

theorem pc1Table_count : ∀ i < 65, 1 ≤ i → pc1Table.count i = if i % 8 = 0 then 0 else 1 := by decide

theorem pc2Table_count : ∀ i < 57, 1 ≤ i →
    pc2Table.count i = if i ∈ [9, 18, 22, 25, 35, 38, 43, 54] then 0 else 1 := by decide

theorem highHalf_append_lowHalf (b : Block) : highHalf b ++ lowHalf b = b := by
  rw [highHalf, lowHalf, BitVec.extractLsb'_append_extractLsb'_eq_extractLsb' (by decide : 32 = 0 + 32)]
  exact BitVec.extractLsb'_eq_self

/-- Settles O58: each stage reads its table, and the tables are as the rules say, entry by entry. -/
theorem stagesReadTheirTables : Obligations.StagesReadTheirTables := by
  obtain ⟨hip, -, he, hp, hpc1, hpc2⟩ := stages_read
  exact ⟨hip, he, hp, hpc1, hpc2,
    fun _ _ _ => ipTable_closed_form, fun g t hg => eTable_closed_form g hg t,
    ip_bijective, pPerm_bijective,
    fun i hpos hi => pTable_count i (Nat.lt_succ_of_le hi) hpos,
    fun i hpos hi => pc1Table_count i (Nat.lt_succ_of_le hi) hpos,
    fun b => (highHalf_append_lowHalf (ip b)).symm, fun k => (initialKeyHalves_append k).symm,
    by decide, by decide,
    fun i hpos hi => pc2Table_count i (Nat.lt_succ_of_le hi) hpos⟩

end Sys2Proof.Proofs

/-! ## Proofs: the S-box layer (R110, R119, R120) -/

namespace Sys2Proof.Proofs

open Sys2Proof.Machine Sys2Proof.Safety Sys2Proof.Laws

/-! ### One lookup: the row and the column of a group (R110) -/

/-- A lookup reads the entry in the row and the column of the group. -/
theorem romRead_eq_entry {j : Fin 8} {g : BitVec 6} {row : Fin 4} {col : Fin 16} (hrow : (sboxRow g).toNat = row.val)
    (hcol : (sboxCol g).toNat = col.val) : romRead j g = sboxMatrices[j][row][col] := by
  simp only [romRead, Fin.getElem_fin, hrow, hcol]

theorem sboxRow_toNat : ∀ g : BitVec 6, (sboxRow g).toNat = 2 * (g.getLsbD 5).toNat + (g.getLsbD 0).toNat := by decide

theorem sboxCol_toNat : ∀ g : BitVec 6,
    (sboxCol g).toNat = 8 * (g.getLsbD 4).toNat + 4 * (g.getLsbD 3).toNat + 2 * (g.getLsbD 2).toNat +
      (g.getLsbD 1).toNat := by decide

/-- The address of a row and a column: `32*a + 2*c + b` for row `2*a + b` and column `c` (R110). -/
def sboxAddress (row : Fin 4) (col : Fin 16) : BitVec 6 :=
  BitVec.ofNat 6 (32 * (row.val / 2) + 2 * col.val + row.val % 2)

theorem sboxRow_sboxAddress : ∀ row col, (sboxRow (sboxAddress row col)).toNat = row.val := by decide

theorem sboxCol_sboxAddress : ∀ row col, (sboxCol (sboxAddress row col)).toNat = col.val := by decide

@[simp] theorem romRead_sboxAddress (j : Fin 8) (row : Fin 4) (col : Fin 16) :
    romRead j (sboxAddress row col) = sboxMatrices[j][row][col] :=
  romRead_eq_entry (sboxRow_sboxAddress row col) (sboxCol_sboxAddress row col)

theorem sboxAddress_eq_ofNat {a b : Fin 2} {row : Fin 4} (h : row.val = 2 * a.val + b.val) (col : Fin 16) :
    sboxAddress row col = BitVec.ofNat 6 (32 * a.val + 2 * col.val + b.val) := by
  rw [sboxAddress, show row.val / 2 = a.val by omega, show row.val % 2 = b.val by omega]

/-! ### The layer: eight independent lookups (R119) -/

/-- Group `j + 1` is DES bits `6j + 1` to `6j + 6`, the first one most significant. -/
theorem getLsbD_sboxGroup (x : RoundKey) (j : Fin 8) {i : Nat} (hi : i < 6) :
    (sboxGroup x j).getLsbD i = dbit x (6 * j.val + (6 - i)) := by
  rw [sboxGroup, dbit, BitVec.getLsbD_extractLsb', decide_eq_true hi, Bool.true_and,
    show 42 - 6 * j.val + i = 48 - (6 * j.val + (6 - i)) by omega]

theorem sboxRow_sboxGroup (x : RoundKey) (j : Fin 8) :
    (sboxRow (sboxGroup x j)).toNat = 2 * (dbit x (6 * j.val + 1)).toNat + (dbit x (6 * j.val + 6)).toNat := by
  simp only [sboxRow_toNat, getLsbD_sboxGroup, Nat.reduceLT, Nat.reduceSub]

theorem sboxCol_sboxGroup (x : RoundKey) (j : Fin 8) :
    (sboxCol (sboxGroup x j)).toNat = 8 * (dbit x (6 * j.val + 2)).toNat + 4 * (dbit x (6 * j.val + 3)).toNat +
      2 * (dbit x (6 * j.val + 4)).toNat + (dbit x (6 * j.val + 5)).toNat := by
  simp only [sboxCol_toNat, getLsbD_sboxGroup, Nat.reduceLT, Nat.reduceSub]

/-- Of eight nibbles in a row, the first one most significant, each is found in its place. -/
theorem extractLsb'_append_nibbles (y : Fin 8 → BitVec 4) (j : Fin 8) :
    (y 0 ++ y 1 ++ y 2 ++ y 3 ++ y 4 ++ y 5 ++ y 6 ++ y 7).extractLsb' (28 - 4 * j.val) 4 = y j := by
  fin_cases j <;>
    simp (disch := decide) only [BitVec.extractLsb'_append_eq_of_le, BitVec.extractLsb'_append_eq_of_add_le] <;>
    exact BitVec.extractLsb'_eq_self

/-- Nibble `j + 1` of the layer is the lookup of group `j + 1` in its box, whatever the other groups hold. -/
theorem sbox_nibble (x : RoundKey) (j : Fin 8) :
    (sbox x).extractLsb' (28 - 4 * j.val) 4 = romRead j (sboxGroup x j) :=
  extractLsb'_append_nibbles (fun j => romRead j (sboxGroup x j)) j

/-- Settles O48: a nibble of the layer is one lookup, whose row and column are DES bits of its group; a flat table
holds at the address of a row and a column what the matrix does. -/
theorem substitutionReadsRowAndColumn : Obligations.SubstitutionReadsRowAndColumn := by
  refine ⟨fun x j row col hrow hcol => ?_, fun j a b c row hrow => ?_⟩
  · rw [sbox_nibble]
    exact romRead_eq_entry ((sboxRow_sboxGroup x j).trans hrow.symm) ((sboxCol_sboxGroup x j).trans hcol.symm)
  · rw [← sboxAddress_eq_ofNat hrow c, flats_agree, romRead_sboxAddress]

/-! ### What the rows say of a box (R120) -/

theorem sboxMatrices_row_nodup : ∀ (j : Fin 8) (row : Fin 4), (sboxMatrices[j][row]).toList.Nodup := by decide

/-- Sixteen distinct 4-bit values are all of them, so a row holds each value once. -/
theorem count_eq_one_of_nodup {r : Vector (BitVec 4) 16} (h : r.toList.Nodup) (y : BitVec 4) :
    r.toList.count y = 1 := by
  have hcard : r.toList.toFinset.card = Fintype.card (BitVec 4) := by
    rw [List.toFinset_card_of_nodup h, Vector.length_toList]
    exact FinEnum.card_eq_fintypeCard (α := BitVec 4)
  have hmem : y ∈ r.toList.toFinset := Finset.eq_univ_of_card _ hcard ▸ Finset.mem_univ y
  exact List.count_eq_one_of_mem h (List.mem_toFinset.mp hmem)

/-- The sixty-four addresses are those of the sixteen columns in each of the four rows. -/
theorem addresses_perm : ((List.finRange 64).map fun g : Fin 64 => BitVec.ofFin g).Perm
    ((List.finRange 4).flatMap fun row => (List.finRange 16).map (sboxAddress row)) := by decide

theorem map_getElem_finRange_eq_toList {α : Type} {n : Nat} (v : Vector α n) :
    ((List.finRange n).map fun i => v[i]) = v.toList := by
  rw [← List.ofFn_eq_map, ← Vector.toList_ofFn]
  exact congrArg Vector.toList Vector.ofFn_getElem

/-- Over the addresses of one row, a box takes every value once. -/
theorem countP_romRead_row (j : Fin 8) (row : Fin 4) (y : BitVec 4) :
    ((List.finRange 16).map (sboxAddress row)).countP (romRead j · == y) = 1 := by
  calc ((List.finRange 16).map (sboxAddress row)).countP (romRead j · == y)
      = ((List.finRange 16).map fun col => romRead j (sboxAddress row col)).count y := by
        rw [List.count, List.countP_map, List.countP_map]; rfl
    _ = (sboxMatrices[j][row]).toList.count y := by
        simp only [romRead_sboxAddress, map_getElem_finRange_eq_toList]
    _ = 1 := count_eq_one_of_nodup (sboxMatrices_row_nodup j row) y

/-- Each box takes every value once in each of its four rows. -/
theorem countP_romRead (j : Fin 8) (y : BitVec 4) :
    (List.finRange 64).countP (fun g : Fin 64 => romRead j (BitVec.ofFin g) == y) = 4 := by
  calc (List.finRange 64).countP (fun g : Fin 64 => romRead j (BitVec.ofFin g) == y)
      = ((List.finRange 64).map fun g : Fin 64 => BitVec.ofFin g).countP (romRead j · == y) := by
        rw [List.countP_map]; rfl
    _ = ((List.finRange 4).flatMap fun row => (List.finRange 16).map (sboxAddress row)).countP (romRead j · == y) :=
        addresses_perm.countP_eq _
    _ = 4 := by simp only [List.countP_flatMap, Function.comp_def, countP_romRead_row]; rfl

/-- No box maps zero to zero. -/
theorem romRead_zero_ne_zero : ∀ j : Fin 8, romRead j 0 ≠ 0 := by decide

/-- Settles O49: a box takes every value once in each row, and neither a box nor the layer keeps zero, as a linear map
would. -/
theorem sboxRowsArePermutations : Obligations.SboxRowsArePermutations := by
  refine ⟨sboxMatrices_row_nodup, fun j y => ?_, fun j => ⟨0, 0, ?_⟩, fun h => ?_⟩
  · rw [← List.countP_eq_length_filter, countP_romRead]
  · rw [BitVec.xor_self, BitVec.xor_self]
    exact romRead_zero_ne_zero j
  · have hnibble := sbox_nibble 0 0
    rw [h] at hnibble
    exact romRead_zero_ne_zero 0 hnibble.symm

end Sys2Proof.Proofs

/-! ## Proofs: the Feistel rounds, their inverse and their complement (R130 to R139) -/

namespace Sys2Proof.Proofs

open Sys2Proof.Machine Sys2Proof.Safety

/-! ### One round and its inverse (R130, R131) -/

/-- The round function sees its two inputs through `E(r) ^ k` alone. -/
theorem feistelF_congr {r r' : Half} {k k' : RoundKey} (h : expand r ^^^ k = expand r' ^^^ k') :
    feistelF r k = feistelF r' k' := congrArg (fun x => pPerm (sbox x)) h

/-- The half that went through `F` is kept, so the same value can be XORed away again. -/
theorem feistelRoundInv_feistelRound (h : Halves) (k : RoundKey) : feistelRoundInv (feistelRound h k) k = h :=
  Prod.ext (xor_cancel_right h.1 (feistelF h.2 k)) rfl

theorem feistelRound_feistelRoundInv (h : Halves) (k : RoundKey) : feistelRound (feistelRoundInv h k) k = h :=
  Prod.ext rfl (xor_cancel_right h.2 (feistelF h.1 k))

/-- Settles O50: `F` and `ROUND` are as the rules print them, and XORing the same value twice leaves the half as it was. -/
theorem roundIsInvertible : Obligations.RoundIsInvertible :=
  ⟨fun _ _ => rfl, fun _ _ _ _ => feistelF_congr, fun l r k =>
    ⟨rfl, feistelRoundInv_feistelRound (l, r) k, feistelRound_feistelRoundInv (l, r) k⟩⟩

/-! ### The rounds backwards: the same rounds on exchanged halves (R138) -/

/-- The inverse of a round is the round itself, with the halves exchanged before and after. -/
theorem feistelRound_swap (h : Halves) (k : RoundKey) : feistelRound h.swap k = (feistelRoundInv h k).swap := rfl

/-- Rounds in the reverse order of their keys, on exchanged halves, undo the rounds. -/
theorem foldl_feistelRound_reverse (ks : List RoundKey) (h : Halves) :
    ks.reverse.foldl feistelRound (ks.foldl feistelRound h).swap = h.swap := by
  induction ks generalizing h with
  | nil => rfl
  | cons k ks ih =>
    calc (k :: ks).reverse.foldl feistelRound ((k :: ks).foldl feistelRound h).swap
        = feistelRound (ks.reverse.foldl feistelRound (ks.foldl feistelRound (feistelRound h k)).swap) k := by
          rw [List.reverse_cons, List.foldl_concat, List.foldl_cons]
      _ = h.swap := by rw [ih, feistelRound_swap, feistelRoundInv_feistelRound]

/-- The other direction reads, in round `i + 1`, the key of round `16 - i` (R135). -/
theorem roundKeyAt_rev (ks : Schedule) (w : Bool) (i : Fin 16) : roundKeyAt ks w i.rev = roundKeyAt ks (!w) i := by
  cases w
  · rfl
  · simp [roundKeyAt]

theorem keySequence_reverse (ks : Schedule) (w : Bool) : (keySequence ks w).reverse = keySequence ks (!w) := by
  rw [keySequence, ← List.map_reverse, List.finRange_reverse, List.map_map]
  exact List.map_congr_left fun i _ => roundKeyAt_rev ks w i

/-- Sixteen rounds read the whole sequence of round keys. -/
theorem halvesAfter_sixteen (b : Block) (ks : Schedule) (w : Bool) :
    halvesAfter b ks w 16 = (keySequence ks w).foldl feistelRound (initialHalves b) := by
  rw [halvesAfter, List.take_of_length_le (by simp [keySequence])]

/-- `IP` undoes `FP`, so a result is taken apart into the last halves, exchanged (R132). -/
theorem initialHalves_outputOf (h : Halves) : initialHalves (outputOf h) = h.swap := by
  rw [initialHalves, leftOperand, rightOperand, outputOf, ip_leftInverse_fp]
  exact Prod.ext BitVec.extractLsb'_append_eq_left BitVec.extractLsb'_append_eq_right

/-- `FP` undoes `IP`, so the initial halves, exchanged, are put together into the block. -/
theorem outputOf_swap_initialHalves (b : Block) : outputOf (initialHalves b).swap = b :=
  (congrArg fp (highHalf_append_lowHalf (ip b))).trans (fp_leftInverse_ip b)

/-- One direction and then the other: the final exchange of R132 hands the second run the exchanged halves that it undoes
the rounds on. -/
theorem crypt_crypt_not (b : Block) (ks : Schedule) (w : Bool) : crypt (crypt b ks w) ks (!w) = b := by
  calc crypt (crypt b ks w) ks (!w)
      = outputOf ((keySequence ks w).reverse.foldl feistelRound
          ((keySequence ks w).foldl feistelRound (initialHalves b)).swap) := by
        rw [crypt, crypt, halvesAfter_sixteen, halvesAfter_sixteen, initialHalves_outputOf, keySequence_reverse]
    _ = b := by rw [foldl_feistelRound_reverse, outputOf_swap_initialHalves]

/-- Settles O51: the second direction reads the keys of the first in reverse, from its last halves exchanged. -/
theorem decryptionInvertsEncryption : Obligations.DecryptionInvertsEncryption := fun b ks =>
  ⟨crypt_crypt_not b ks false, crypt_crypt_not b ks true⟩

/-! ### Complements of halves and blocks (R98, R139) -/

/-- Two halves complemented: of the block or of the key state. -/
def complementHalves {n : Nat} (h : BitVec n × BitVec n) : BitVec n × BitVec n := (~~~h.1, ~~~h.2)

theorem not_xor_not {n : Nat} (a b : BitVec n) : ~~~a ^^^ ~~~b = a ^^^ b := by
  rw [← BitVec.not_xor_left, ← BitVec.not_xor_right, BitVec.not_not]

theorem extractLsb'_not {n : Nat} (v : BitVec n) {start len : Nat} (h : start + len ≤ n) :
    (~~~v).extractLsb' start len = ~~~(v.extractLsb' start len) := by
  apply BitVec.eq_of_getLsbD_eq
  intro i hi
  simp [hi, show start + i < n by omega]

/-- A stage that reads a table commutes with complement. -/
theorem map_not_of_stageReads {n m : Nat} {f : BitVec n → BitVec m} {t : List Nat} (h : StageReads f t) (v : BitVec n) :
    f (~~~v) = ~~~(f v) := by
  obtain ⟨-, -, hnot⟩ := xorLinear_of_stageReads h
  exact hnot v

theorem ip_not (b : Block) : ip (~~~b) = ~~~(ip b) := by
  obtain ⟨hip, -⟩ := stages_read
  exact map_not_of_stageReads hip b

theorem fp_not (b : Block) : fp (~~~b) = ~~~(fp b) := by
  obtain ⟨-, hfp, -⟩ := stages_read
  exact map_not_of_stageReads hfp b

theorem expand_not (r : Half) : expand (~~~r) = ~~~(expand r) := by
  obtain ⟨-, -, he, -⟩ := stages_read
  exact map_not_of_stageReads he r

theorem pc1_not (k : Key) : pc1 (~~~k) = ~~~(pc1 k) := by
  obtain ⟨-, -, -, -, hpc1, -⟩ := stages_read
  exact map_not_of_stageReads hpc1 k

theorem pc2_not (cd : KeyState) : pc2 (~~~cd) = ~~~(pc2 cd) := by
  obtain ⟨-, -, -, -, -, hpc2⟩ := stages_read
  exact map_not_of_stageReads hpc2 cd

theorem initialHalves_not (b : Block) : initialHalves (~~~b) = complementHalves (initialHalves b) := by
  rw [initialHalves, leftOperand, rightOperand, ip_not]
  exact Prod.ext (extractLsb'_not (ip b) (by decide)) (extractLsb'_not (ip b) (by decide))

theorem outputOf_complementHalves (h : Halves) : outputOf (complementHalves h) = ~~~(outputOf h) := by
  rw [outputOf, complementHalves, ← BitVec.not_append, fp_not, outputOf]

/-! ### The complement of the key (R139) -/

theorem rotl28_not (v : KeyHalf) (s : Nat) : rotl28 (~~~v) s = ~~~(rotl28 v s) := by
  apply BitVec.eq_of_getMsbD_eq
  intro i hi
  simp [rotl28, BitVec.getMsbD_rotateLeft, hi, Nat.mod_lt]

theorem rotateHalves_complementHalves (h : KeyHalves) (s : Nat) :
    rotateHalves (complementHalves h) s = complementHalves (rotateHalves h s) :=
  Prod.ext (rotl28_not h.1 s) (rotl28_not h.2 s)

theorem initialKeyHalves_not (k : Key) : initialKeyHalves (~~~k) = complementHalves (initialKeyHalves k) := by
  rw [initialKeyHalves, cOperand, dOperand, pc1_not]
  exact Prod.ext (extractLsb'_not (pc1 k) (by decide)) (extractLsb'_not (pc1 k) (by decide))

/-- Every rotation moves complemented bits as it moves the bits. -/
theorem keyHalvesAfter_not (k : Key) (n : Nat) : keyHalvesAfter (~~~k) n = complementHalves (keyHalvesAfter k n) := by
  rw [keyHalvesAfter, initialKeyHalves_not]
  exact List.foldl_hom complementHalves rotateHalves_complementHalves

theorem roundKeyOf_complementHalves (h : KeyHalves) : roundKeyOf (complementHalves h) = ~~~(roundKeyOf h) := by
  rw [roundKeyOf, complementHalves, ← BitVec.not_append, pc2_not, roundKeyOf]

/-- The schedule of the complemented key is the complemented schedule. -/
theorem keySchedule_not (k : Key) : keySchedule (~~~k) = (keySchedule k).map (~~~·) := by
  ext1 i hi
  simp [keySchedule, keyHalvesAfter_not, roundKeyOf_complementHalves]

/-! ### The complement of block and round keys (R139) -/

/-- `F` sees `E(r) ^ k`, which is unchanged when both are complemented. -/
theorem feistelF_not (r : Half) (k : RoundKey) : feistelF (~~~r) (~~~k) = feistelF r k :=
  feistelF_congr (by rw [expand_not, not_xor_not])

theorem feistelRound_complementHalves (h : Halves) (k : RoundKey) :
    feistelRound (complementHalves h) (~~~k) = complementHalves (feistelRound h k) := by
  refine Prod.ext rfl ?_
  calc ~~~h.1 ^^^ feistelF (~~~h.2) (~~~k) = ~~~h.1 ^^^ feistelF h.2 k := by rw [feistelF_not]
    _ = ~~~(h.1 ^^^ feistelF h.2 k) := BitVec.not_xor_left.symm

theorem keySequence_map (f : RoundKey → RoundKey) (ks : Schedule) (w : Bool) :
    keySequence (ks.map f) w = (keySequence ks w).map f := by
  rw [keySequence, keySequence, List.map_map]
  refine List.map_congr_left fun i _ => ?_
  cases w <;> simp [roundKeyAt]

/-- Complementing the block and every round key complements the halves after every round. -/
theorem halvesAfter_not (b : Block) (ks : Schedule) (w : Bool) (n : Nat) :
    halvesAfter (~~~b) (ks.map (~~~·)) w n = complementHalves (halvesAfter b ks w n) := by
  rw [halvesAfter, initialHalves_not, keySequence_map, ← List.map_take, List.foldl_map]
  exact List.foldl_hom complementHalves feistelRound_complementHalves

theorem crypt_not (b : Block) (ks : Schedule) (w : Bool) :
    crypt (~~~b) (ks.map (~~~·)) w = ~~~(crypt b ks w) := by
  rw [crypt, halvesAfter_not, outputOf_complementHalves, crypt]

/-- Settles O52: complementing the key complements every round key, so every round and the result follow. -/
theorem complementationLaw : Obligations.ComplementationLaw := fun b k => by
  rw [encryptBlock, keySchedule_not, crypt_not, encryptBlock]

end Sys2Proof.Proofs

/-! ## Proofs: the key schedule (R150 to R157) -/

namespace Sys2Proof.Proofs

open Sys2Proof.Machine Sys2Proof.Safety Sys2Proof.Laws

/-! ### DES-numbered bits of slices and concatenations (R13) -/

theorem dbit_eq_getMsbD {n j : Nat} (v : BitVec n) (hj : j < n) : dbit v (j + 1) = v.getMsbD j := by
  rw [dbit, BitVec.getMsbD_eq_getLsbD, decide_eq_true hj, Bool.true_and, Nat.sub_sub, Nat.add_comm 1 j]

@[simp] theorem dbit_and {n : Nat} (a b : BitVec n) (i : Nat) : dbit (a &&& b) i = (dbit a i && dbit b i) :=
  BitVec.getLsbD_and

theorem dbit_allOnes {n i : Nat} (h : 1 ≤ i ∧ i ≤ n) : dbit (BitVec.allOnes n) i = true := by
  rw [dbit, BitVec.getLsbD_allOnes, decide_eq_true (by omega)]

theorem dbit_cast {n m : Nat} (h : n = m) (v : BitVec n) (i : Nat) : dbit (v.cast h) i = dbit v i := by
  subst h
  rfl

theorem dbit_append_left {m n i : Nat} (a : BitVec m) (b : BitVec n) (hi : i ≤ m) : dbit (a ++ b) i = dbit a i := by
  rw [dbit, dbit, BitVec.getLsbD_append, if_neg (by omega), show m + n - i - n = m - i by omega]

theorem dbit_append_right {m n i : Nat} (a : BitVec m) (b : BitVec n) (hi : 1 ≤ i ∧ i ≤ n) :
    dbit (a ++ b) (m + i) = dbit b i := by
  rw [dbit, dbit, BitVec.getLsbD_append, if_pos (by omega), show m + n - (m + i) = n - i by omega]

/-- A slice starts after the bits above it. -/
theorem dbit_extractLsb' {n start len i : Nat} (v : BitVec n) (h : start + len ≤ n) (hi : 1 ≤ i ∧ i ≤ len) :
    dbit (v.extractLsb' start len) i = dbit v (n - (start + len) + i) := by
  rw [dbit, dbit, BitVec.getLsbD_extractLsb', decide_eq_true (by omega : len - i < len), Bool.true_and,
    show n - (n - (start + len) + i) = start + (len - i) by omega]

/-! ### Rotation within 28 bits (R150) -/

/-- Every bit moves `s` places to the left, and those shifted out re-enter at the bottom. -/
theorem dbit_rotl28 (v : KeyHalf) (s : Nat) {j : Nat} (hj : j < 28) :
    dbit (rotl28 v s) (j + 1) = dbit v ((j + s) % 28 + 1) := by
  rw [dbit_eq_getMsbD _ hj, dbit_eq_getMsbD _ (Nat.mod_lt _ (by decide)), rotl28, BitVec.getMsbD_rotateLeft,
    decide_eq_true hj, Bool.true_and, Nat.add_comm j s]

/-- The top `s` bits re-enter below the other `t`. -/
theorem rotl28_eq_slices (v : KeyHalf) {s t : Nat} (h : t + s = 28) :
    rotl28 v s = (v.extractLsb' 0 t ++ v.extractLsb' t s).cast h := by
  apply eq_of_dbit
  intro j hj
  rw [dbit_rotl28 v s hj, dbit_cast]
  by_cases hjt : j < t
  · rw [dbit_append_left _ _ hjt, dbit_extractLsb' v (by omega) (by omega),
      show (j + s) % 28 + 1 = 28 - (0 + t) + (j + 1) by omega]
  · obtain ⟨i, rfl⟩ := Nat.exists_eq_add_of_le (Nat.le_of_not_lt hjt)
    rw [Nat.add_assoc t i 1, dbit_append_right _ _ (by omega), dbit_extractLsb' v (by omega) (by omega),
      show (t + i + s) % 28 + 1 = 28 - (t + s) + (i + 1) by omega]

/-- Settles O53: the slices are the bits shifted out put below the others, as the law for one bit says. -/
theorem rotationStaysWithinTwentyEightBits : Obligations.RotationStaysWithinTwentyEightBits := by
  refine fun v => ⟨rotl28_eq_slices v rfl, rotl28_eq_slices v rfl, fun s i _ hpos hi => ?_⟩
  obtain ⟨j, rfl⟩ := Nat.exists_eq_add_of_le' hpos
  exact dbit_rotl28 v s hi

/-! ### Cumulative rotations (R152) -/

/-- By how much rounds 1 to `n` rotate the key halves in all. -/
def cumulativeShift (n : Nat) : Nat := (shiftTable.toList.take n).sum

theorem keyHalvesAfter_eq_rotateHalves (k : Key) (n : Nat) :
    keyHalvesAfter k n = rotateHalves (initialKeyHalves k) (cumulativeShift n) := foldl_rotateHalves _ _

/-- The cumulative amounts are those that R152 prints. -/
theorem printed_cumulativeShift : ∀ n : Fin 16,
    [1, 2, 4, 6, 8, 10, 12, 14, 15, 17, 19, 21, 23, 25, 27, 28][n.val]? = some (cumulativeShift (n.val + 1)) := by
  decide

/-- Settles O54: rotations add up, and the sums of `SHIFT` are the printed amounts, the last of them a full turn. -/
theorem keyHalvesReturnAfterSixteenRounds : Obligations.KeyHalvesReturnAfterSixteenRounds := by
  refine fun k => ⟨rfl, keyHalvesAfter_succ k, fun n e he => ?_, keyHalvesAfter_sixteen k⟩
  obtain rfl : cumulativeShift (n.val + 1) = e := Option.some.inj ((printed_cumulativeShift n).symm.trans he)
  exact keyHalvesAfter_eq_rotateHalves k (n.val + 1)

/-! ### A round key is read from `PC1(k)` alone (R153, R154) -/

/-- Both halves of the key state rotated, each within its own 28 bits (R150). -/
def rotateKeyState (s : Nat) (cd : KeyState) : KeyState := rotl28 (highKeyHalf cd) s ++ rotl28 (lowKeyHalf cd) s

/-- `K_(n+1)`: `PC1`, then the rotations of rounds 1 to `n + 1`, then `PC2`. -/
theorem keySchedule_getElem_eq_pc2 (k : Key) (n : Fin 16) :
    (keySchedule k)[n] = pc2 (rotateKeyState (cumulativeShift (n.val + 1)) (pc1 k)) := by
  rw [keySchedule_getElem, keyHalvesAfter_eq_rotateHalves]
  rfl

theorem keySchedule_congr {k k' : Key} (h : pc1 k = pc1 k') : keySchedule k = keySchedule k' := by
  simp only [keySchedule, keyHalvesAfter, initialKeyHalves, cOperand, dOperand, h]

/-- The mask of R154 keeps every key bit that `PC1` reads. -/
theorem pc1Table_dbit_mask : ∀ e ∈ pc1Table, dbit (0xFEFEFEFEFEFEFEFE : Key) e = true := by decide

/-- `PC1` of parity bits alone is zero. -/
theorem pc1_eq_zero_of_parity {m : Key} (h : m &&& 0xFEFEFEFEFEFEFEFE = 0) : pc1 m = 0 := by
  obtain ⟨-, -, -, -, ⟨hlen, -, hread⟩, -⟩ := stages_read
  refine eq_of_dbit fun j hj => ?_
  rw [← hlen] at hj
  have hmask := pc1Table_dbit_mask _ (List.getElem_mem hj)
  calc dbit (pc1 m) (j + 1)
      = dbit (m &&& 0xFEFEFEFEFEFEFEFE) pc1Table[j] := by rw [hread m j hj, dbit_and, hmask, Bool.and_true]
    _ = dbit 0 (j + 1) := by rw [h, dbit_zero, dbit_zero]

/-- Settles O55: `PC1` is linear and reads none of the changed bits. -/
theorem parityBitsDoNotMatter : Obligations.ParityBitsDoNotMatter := by
  intro k m h
  obtain ⟨-, -, -, -, hpc1, -⟩ := stages_read
  obtain ⟨hxor, -⟩ := xorLinear_of_stageReads hpc1
  apply keySchedule_congr
  rw [hxor, pc1_eq_zero_of_parity h]
  exact BitVec.xor_zero

/-! ### Degenerate key halves (R155) -/

/-- A half that rotation leaves as it is: all zeros or all ones. -/
abbrev Degenerate (v : KeyHalf) : Prop := v = 0 ∨ v = BitVec.allOnes 28

theorem rotl28_degenerate {v : KeyHalf} (h : Degenerate v) (s : Nat) : rotl28 v s = v := by
  refine eq_of_dbit fun j hj => ?_
  rw [dbit_rotl28 v s hj]
  obtain rfl | rfl := h
  · rw [dbit_zero, dbit_zero]
  · rw [dbit_allOnes (by omega), dbit_allOnes (by omega)]

/-- Rotation does nothing, so every round reads `PC2` of the same key state. -/
theorem keySchedule_degenerate {k : Key} (hc : Degenerate (cOperand k)) (hd : Degenerate (dOperand k)) :
    keySchedule k = Vector.replicate 16 (pc2 (pc1 k)) := by
  ext1 i hi
  have hhalves : keyHalvesAfter k (i + 1) = initialKeyHalves k := by
    rw [keyHalvesAfter_eq_rotateHalves]
    exact Prod.ext (rotl28_degenerate hc _) (rotl28_degenerate hd _)
  simp [keySchedule, hhalves, roundKeyOf, initialKeyHalves_append]

/-- Equal round keys make the two directions equal: the order in which they are read does not matter. -/
theorem crypt_replicate (b : Block) (key : RoundKey) (w : Bool) :
    crypt b (Vector.replicate 16 key) w = crypt b (Vector.replicate 16 key) (!w) := by
  have hsequence : keySequence (Vector.replicate 16 key) w = keySequence (Vector.replicate 16 key) (!w) :=
    List.map_congr_left fun i _ => by cases w <;> simp [roundKeyAt]
  rw [crypt, halvesAfter, hsequence, crypt, halvesAfter]

theorem keySchedule_eq_replicate {k : Key} {key : RoundKey}
    (h : Degenerate (cOperand k) ∧ Degenerate (dOperand k) ∧ pc2 (pc1 k) = key) :
    keySchedule k = Vector.replicate 16 key := by
  obtain ⟨hc, hd, rfl⟩ := h
  exact keySchedule_degenerate hc hd

/-- Settles O56: rotation leaves degenerate halves as they are, and the six keys have such halves. -/
theorem degenerateSchedulesAreConstant : Obligations.DegenerateSchedulesAreConstant := by
  refine ⟨fun k hc hd => ?_, keySchedule_eq_replicate (by decide), keySchedule_eq_replicate (by decide),
    keySchedule_eq_replicate (by decide), keySchedule_eq_replicate (by decide),
    keySchedule_eq_replicate (by decide), keySchedule_eq_replicate (by decide)⟩
  rw [keySchedule_degenerate hc hd]
  refine ⟨fun i => by simp, fun b => ?_⟩
  rw [encryptBlock, decryptBlock, keySchedule_degenerate hc hd]
  exact crypt_replicate b _ false

/-! ### Stages one after another read one table (R157) -/

/-- The table of a stage that reads `u` after a stage that reads `t`. -/
def composeTables (t u : List Nat) : List Nat := u.map (fun e => t.getD (e - 1) 0)

/-- A composed table names entries of the first table only. -/
theorem mem_of_mem_composeTables {t u : List Nat} (hu : ∀ e ∈ u, 1 ≤ e ∧ e ≤ t.length) {x : Nat}
    (hx : x ∈ composeTables t u) : x ∈ t := by
  obtain ⟨e, he, rfl⟩ := List.mem_map.mp hx
  obtain ⟨hpos, hle⟩ := hu e he
  rw [List.getD_eq_getElem _ _ (by omega)]
  exact List.getElem_mem _

theorem nodup_composeTables {t u : List Nat} (ht : t.Nodup) (hu : u.Nodup) (hrange : ∀ e ∈ u, 1 ≤ e ∧ e ≤ t.length) :
    (composeTables t u).Nodup := by
  refine hu.map_on fun a ha b hb h => ?_
  obtain ⟨hapos, hale⟩ := hrange a ha
  obtain ⟨hbpos, hble⟩ := hrange b hb
  rw [List.getD_eq_getElem _ _ (by omega), List.getD_eq_getElem _ _ (by omega), ht.getElem_inj_iff] at h
  omega

theorem stageReads_comp {l m n : Nat} {f : BitVec l → BitVec m} {g : BitVec m → BitVec n} {t u : List Nat}
    (hf : StageReads f t) (hg : StageReads g u) : StageReads (fun v => g (f v)) (composeTables t u) := by
  obtain ⟨rfl, hft, hf⟩ := hf
  obtain ⟨rfl, hgu, hg⟩ := hg
  refine ⟨by simp [composeTables], fun e he => hft e (mem_of_mem_composeTables hgu he), fun v j hj => ?_⟩
  have hju : j < u.length := by simpa [composeTables] using hj
  obtain ⟨hpos, hle⟩ := hgu _ (List.getElem_mem hju)
  have hlt : u[j] - 1 < t.length := by omega
  calc dbit (g (f v)) (j + 1)
      = dbit (f v) (u[j] - 1 + 1) := by rw [hg _ j hju, Nat.sub_add_cancel hpos]
    _ = dbit v (composeTables t u)[j] := by simp [hf v _ hlt, composeTables, hlt]

/-- Reading a table is `PERMUTE` by it. -/
theorem eq_permute_of_stageReads {n m : Nat} {f : BitVec n → BitVec m} {t : List Nat} (h : StageReads f t)
    (v : BitVec n) : f v = permute m t v := by
  obtain ⟨rfl, -, hread⟩ := h
  exact eq_of_dbit fun j hj => by rw [hread v j hj, dbit_permute rfl v hj]

/-! ### The rotated key state reads a table (R150, R152) -/

/-- The positions of the key state after a rotation of both halves by `s`: those of `C`, then those of `D`. -/
def rotatedPositions (s : Nat) : List Nat := (List.range' 1 28).rotate s ++ (List.range' 29 28).rotate s

/-- Every position of the key state stands once among the rotated ones. -/
theorem rotatedPositions_perm (s : Nat) : (rotatedPositions s).Perm (List.range' 1 56) :=
  (List.rotate_perm _ s).append (List.rotate_perm _ s)

theorem rotatedPositions_range (s : Nat) : ∀ e ∈ rotatedPositions s, 1 ≤ e ∧ e ≤ 56 := by
  intro e he
  have hmem := (rotatedPositions_perm s).mem_iff.mp he
  rw [List.mem_range'_1] at hmem
  omega

theorem rotatedPositions_nodup (s : Nat) : (rotatedPositions s).Nodup :=
  (rotatedPositions_perm s).nodup_iff.mpr List.nodup_range'

theorem stageReads_rotateKeyState (s : Nat) : StageReads (rotateKeyState s) (rotatedPositions s) := by
  refine ⟨by simp [rotatedPositions], rotatedPositions_range s, fun cd j hj => ?_⟩
  have hj56 : j < 56 := by simpa [rotatedPositions] using hj
  by_cases hjc : j < 28
  · have hentry : (rotatedPositions s)[j] = (j + s) % 28 + 1 := by
      simp only [rotatedPositions, List.getElem_append_left, List.getElem_rotate, List.getElem_range',
        List.length_rotate, List.length_range', hjc]
      omega
    rw [hentry, rotateKeyState, dbit_append_left _ _ hjc, dbit_rotl28 _ s hjc, highKeyHalf,
      dbit_extractLsb' cd (by decide) (by omega), Nat.zero_add]
  · obtain ⟨i, rfl⟩ := Nat.exists_eq_add_of_le (Nat.le_of_not_lt hjc)
    have hentry : (rotatedPositions s)[28 + i] = 28 + ((i + s) % 28 + 1) := by
      simp only [rotatedPositions, List.getElem_append_right, List.getElem_rotate, List.getElem_range',
        List.length_rotate, List.length_range', Nat.le_add_right]
      omega
    rw [hentry, rotateKeyState, Nat.add_assoc 28 i 1, dbit_append_right _ _ (by omega), dbit_rotl28 _ s (by omega),
      lowKeyHalf, dbit_extractLsb' cd (by decide) (by omega)]

/-! ### The selection of each round (R157) -/

theorem keyTables_nodup : pc1Table.Nodup ∧ pc2Table.Nodup := by
  have h := tables_distinct
  simp only [Bool.and_eq_true, and_assoc, tableDistinct, decide_eq_true_iff] at h
  obtain ⟨-, -, -, hkey⟩ := h
  exact hkey

/-- The key bits that stand in the two halves after `n` rounds, in order. -/
def keyStateTable (n : Nat) : List Nat := composeTables pc1Table (rotatedPositions (cumulativeShift n))

theorem stageReads_keyState (n : Nat) :
    StageReads (fun k => rotateKeyState (cumulativeShift n) (pc1 k)) (keyStateTable n) := by
  obtain ⟨-, -, -, -, hpc1, -⟩ := stages_read
  exact stageReads_comp hpc1 (stageReads_rotateKeyState _)

theorem keyStateTable_nodup (n : Nat) : (keyStateTable n).Nodup :=
  nodup_composeTables keyTables_nodup.1 (rotatedPositions_nodup _) (rotatedPositions_range _)

/-- No parity bit enters the key state: `PC1_TABLE` names none. -/
theorem keyStateTable_no_parity {n e : Nat} (he : e ∈ keyStateTable n) : e % 8 ≠ 0 := by
  have hpc1 : ∀ x ∈ pc1Table, x % 8 ≠ 0 := by decide
  exact hpc1 e (mem_of_mem_composeTables (rotatedPositions_range _) he)

/-- The key bits that the round key of round `n` is made of, in order. -/
def roundKeyTable (n : Nat) : List Nat := composeTables (keyStateTable n) pc2Table

theorem stageReads_roundKey (n : Fin 16) : StageReads (fun k => (keySchedule k)[n]) (roundKeyTable (n.val + 1)) := by
  obtain ⟨-, -, -, -, -, hpc2⟩ := stages_read
  simp only [keySchedule_getElem_eq_pc2]
  exact stageReads_comp (stageReads_keyState _) hpc2

/-- `PC2_TABLE` names positions of the key state. -/
theorem pc2Table_range (n : Nat) : ∀ e ∈ pc2Table, 1 ≤ e ∧ e ≤ (keyStateTable n).length := by
  obtain ⟨-, -, -, -, -, -, hrange, -⟩ := stages_read
  obtain ⟨hlen, -⟩ := stageReads_keyState n
  rwa [hlen]

theorem roundKeyTable_nodup (n : Nat) : (roundKeyTable n).Nodup :=
  nodup_composeTables (keyStateTable_nodup n) keyTables_nodup.2 (pc2Table_range n)

theorem roundKeyTable_no_parity {n e : Nat} (he : e ∈ roundKeyTable n) : e % 8 ≠ 0 :=
  keyStateTable_no_parity (mem_of_mem_composeTables (pc2Table_range n) he)

/-- Settles O57: each round key reads one table, composed of `PC1_TABLE`, a rotation and `PC2_TABLE`, so it is linear. -/
theorem roundKeysSelectKeyBits : Obligations.RoundKeysSelectKeyBits := by
  intro n
  have hreads := stageReads_roundKey n
  obtain ⟨hxor, -, hnot⟩ := xorLinear_of_stageReads hreads
  have ⟨hlen, hrange, _⟩ := hreads
  refine ⟨⟨roundKeyTable (n.val + 1), hlen, roundKeyTable_nodup _, fun e he => ?_,
    eq_permute_of_stageReads hreads⟩, hxor, hnot⟩
  obtain ⟨hpos, hle⟩ := hrange e he
  exact ⟨hpos, hle, roundKeyTable_no_parity he⟩

end Sys2Proof.Proofs

/-! ## Proofs: the commands at their accepting edge, their steps, and commands one after the other (R170 to R184) -/

namespace Sys2Proof.Proofs

open Sys2Proof.Machine Sys2Proof.Safety Sys2Proof.Laws

/-! ### The order of the cases of one edge, and the idle core (R170, R183) -/

/-- Settles O6: each case of R170 is a branch of `edge`. -/
theorem edgeTestsItsCasesInOrder : Obligations.EdgeTestsItsCasesInOrder := by
  intro p s
  refine ⟨edge_reset, fun hr hp => ?_, fun hr hp => ?_, fun hr hp he => edge_hold hr hp ?_,
    fun hr hp _ hv => edge_hold hr hp ?_, fun hr hp he hv => edge_accept (acceptedAt_iff.mpr ⟨hr, hv, hp, he⟩)⟩
  · simp [edge, hr, hp]
  · simp [edge, hr, hp]
  · simp [acceptedAt, cmdReady, he]
  · simp [acceptedAt, hv]

/-- Settles O7, by induction on the edges: nothing that is presented is nothing that is accepted. -/
theorem idleCoreHoldsItsState : Obligations.IdleCoreHoldsItsState := by
  intro ps s hp hnothing
  induction ps with
  | nil => rfl
  | cons p ps ih =>
    obtain ⟨⟨hr, hv⟩, hrest⟩ := List.forall_mem_cons.mp hnothing
    rw [edges_cons (edge_hold hr hp (by simp [acceptedAt, hv])), ih hrest]

/-! ### The commands at their accepting edge (R171, R172, R175, R176, R180 to R182) -/

/-- A ready core accepts the command. -/
theorem exec_ready {s : State} (h : cmdReady s = true) (i : Instr) : exec i s = .next (acceptedState i s) := by
  rw [exec_eq_accept, accept_ready h]

/-- A block command that finds a schedule starts the rounds (R175, R176). -/
theorem exec_blockCommand_valid {s : State} (h : cmdReady s = true) (hk : s.keyValid = true) (w : Bool) (b : Block) :
    exec (blockCommand w b) s = .next (startCrypt w b s) := by
  rw [exec_ready h, acceptedState_blockCommand, acceptBlock_valid hk]

/-- A block command that finds no schedule raises `NO_KEY` (R182). -/
theorem exec_blockCommand_invalid {s : State} (h : cmdReady s = true) (hk : s.keyValid = false) (w : Bool) (b : Block) :
    exec (blockCommand w b) s = .next (raiseFault .noKey s) := by
  rw [exec_ready h, acceptedState_blockCommand, acceptBlock_invalid hk]

/-- Settles O8: a word with opcode 0 decodes to `NOP`, whose accepted state is the state before. -/
theorem nopChangesNothing : Obligations.NopChangesNothing := by
  refine ⟨fun s h => exec_ready h .nop, fun imm s h => ?_⟩
  obtain ⟨hp, he⟩ := (cmdReady_iff s).mp h
  have hdecode : decodeWord ((0b000 : BitVec 3) ++ imm) = .nop := decodeWord_append _ _
  rw [edge_accepted (acceptedAt_iff.mpr ⟨rfl, rfl, hp, he⟩), cmdPort, hdecode]
  rfl

/-- Settles O9: the accepted state of `LDKEY` is `startKeygen`. -/
theorem ldkeyAcceptanceStartsKeyGeneration : Obligations.LdkeyAcceptanceStartsKeyGeneration :=
  fun k _ h => exec_ready h (.ldkey k)

/-- Settles O12: `ENC` is the block command in the encrypting direction. -/
theorem encAcceptanceStartsTheRounds : Obligations.EncAcceptanceStartsTheRounds :=
  fun b _ h => ⟨fun hk => exec_blockCommand_valid h hk false b, fun hk => exec_blockCommand_invalid h hk false b⟩

/-- Settles O13: `DEC` is the block command in the decrypting direction. -/
theorem decAcceptanceStartsTheRounds : Obligations.DecAcceptanceStartsTheRounds :=
  fun b _ h => ⟨fun hk => exec_blockCommand_valid h hk true b, fun hk => exec_blockCommand_invalid h hk true b⟩

/-- Settles O17: `CLR` is `clearData`, which under the control invariant leaves no element of reset's to be written; an
unready core looks at no command word. -/
theorem clrReturnsToTheResetState : Obligations.ClrReturnsToTheResetState := by
  refine ⟨fun s h => exec_ready h .clr, fun s h hc => ?_, fun imm s h => ?_⟩
  · rw [exec_ready h, acceptedState, clearData_eq_resetRegs hc h]
    rfl
  · have hna (p : PortIn) : acceptedAt p s = false := by simp [acceptedAt, h]
    exact ⟨hna _, edge_congr_of_not_accepted rfl (hna _) (hna _)⟩

/-- Settles O18: the accepted state of each reserved opcode is the fault `RSVD_OP`. -/
theorem reservedOpcodesRaiseRsvdOp : Obligations.ReservedOpcodesRaiseRsvdOp := by
  rintro i s (rfl | rfl | rfl) h
  · exact exec_ready h .rsvd5
  · exact exec_ready h .rsvd6
  · exact exec_ready h .rsvd7

/-- Settles O19: without a schedule a block command raises `NO_KEY`, in either direction. -/
theorem blockWithoutScheduleRaisesNoKey : Obligations.BlockWithoutScheduleRaisesNoKey := by
  rintro i b s (rfl | rfl) h hk
  · exact exec_blockCommand_invalid h hk false b
  · exact exec_blockCommand_invalid h hk true b

/-! ### The steps of a running command (R173, R177) -/

/-- Before the sixteenth round no round is the last. -/
theorem isLastRound_of_lt {i : Fin 16} (h : i.val < 15) : isLastRound i = false := by
  simp [isLastRound, h.ne]

/-- Settles O10: the step is `keygenAt`, before the last round and at the last. -/
theorem keyGenerationStepWritesOneRoundKey : Obligations.KeyGenerationStepWritesOneRoundKey := by
  intro p s i hr hp hn
  refine ⟨keygenAt i s, edge_keygen hr hp hn, fun hi => ?_, fun hi => ?_, ?_⟩
  · exact ⟨by simp [nextRnd_val_of_lt hi], by simp [isLastRound_of_lt hi, hp], by simp [isLastRound_of_lt hi]⟩
  · have hl := isLastRound_iff.mpr hi
    exact ⟨by simp [nextRnd_last hi], by simp [hl], by simp [hl]⟩
  · apply state_ext <;> simp [roundKeyOf, rotateHalves]

/-- The decrypting direction reads the round keys from the last to the first. -/
theorem roundKeyAt_of_add_eq {i j : Fin 16} (h : i.val + j.val = 15) (ks : Schedule) (w : Bool) :
    roundKeyAt ks w i = if w then ks[j] else ks[i] := by
  obtain rfl : j = i.rev := Fin.ext (by rw [Fin.val_rev]; omega)
  rfl

/-- Settles O14: the step is `roundAt`, before the last round and at the last. -/
theorem roundStepRunsOneFeistelRound : Obligations.RoundStepRunsOneFeistelRound := by
  intro p s i j hr hp hn hij
  refine ⟨roundAt i s, edge_crypt hr hp hn, roundAt_l i s, ?_, fun hi => ?_, fun hi => ?_, ?_⟩
  · rw [roundAt_r, roundKeyAt_of_add_eq hij]
  · have hl := isLastRound_of_lt hi
    exact ⟨by simp [nextRnd_val_of_lt hi], by simp [hl, hp], by simp [hl], by simp [hl]⟩
  · have hl := isLastRound_iff.mpr hi
    exact ⟨by simp [nextRnd_last hi], by simp [hl], by simp [hl, outputOf, feistelRound], by simp [hl]⟩
  · apply state_ext <;> simp

/-! ### A busy core is on its way to one idle state (R184) -/

/-- `SettlesIn n s u`: in state `s` the core is busy for `n` more edges without reset, whatever is presented at them,
and then idle in state `u`. This is the simulation relation between the edge-by-edge machine, whose state is `s`, and
the command-level machine, whose state at the same time is `u`. -/
inductive SettlesIn : Nat → State → State → Prop
  | idle {u : State} (hp : u.phase = .idle) : SettlesIn 0 u u
  | busy {n : Nat} {s t u : State} (hp : s.phase ≠ .idle) (hedge : ∀ p, p.rst = false → edge p s = .next t)
      (ht : SettlesIn n t u) : SettlesIn (n + 1) s u

theorem SettlesIn.phase_idle {n : Nat} {s u : State} (h : SettlesIn n s u) : u.phase = .idle := by
  induction h with
  | idle hp => exact hp
  | busy _ _ _ ih => exact ih

/-- An idle core is where it was heading. -/
theorem SettlesIn.eq_of_idle {n : Nat} {s u : State} (h : SettlesIn n s u) (hp : s.phase = .idle) : s = u := by
  cases h with
  | idle => rfl
  | busy hbusy => exact absurd hp hbusy

theorem SettlesIn.eq_of_zero {s u : State} (h : SettlesIn 0 s u) : s = u := by
  cases h
  rfl

/-- A row of busy states, each an edge after the one before, leads to its end. -/
theorem SettlesIn.of_row (n : Nat) {f : Nat → State} (hbusy : ∀ i < n, (f i).phase ≠ .idle)
    (hedge : ∀ i < n, ∀ p, p.rst = false → edge p (f i) = .next (f (i + 1))) (hidle : (f n).phase = .idle) :
    SettlesIn n (f 0) (f n) := by
  induction n generalizing f with
  | zero => exact .idle hidle
  | succ n ih =>
    have hrest : SettlesIn n (f 1) (f (n + 1)) :=
      ih (f := fun i => f (i + 1)) (fun i hi => hbusy (i + 1) (by omega)) (fun i hi => hedge (i + 1) (by omega)) hidle
    exact .busy (hbusy 0 (by omega)) (hedge 0 (by omega)) hrest

/-- An accepted `LDKEY` settles with the key loaded (R174). -/
theorem settlesIn_startKeygen (k : Key) (s : State) : SettlesIn 16 (startKeygen k s) (loadKeyWhole k s) := by
  rw [← keygenState_zero, ← keygenState_sixteen]
  exact .of_row 16 (fun i hi => by simp [keygenState, hi.ne]) (fun i hi p hr => edge_keygenState hr k s hi) rfl

/-- A block accepted as work settles with the block transformed (R178, R179). -/
theorem settlesIn_startCrypt {s : State} (hk : s.keyValid = true) (w : Bool) (b : Block) :
    SettlesIn 16 (startCrypt w b s) (cryptWhole w b s) := by
  rw [← roundState_zero, ← roundState_sixteen hk]
  exact .of_row 16 (fun i hi => by simp [roundState, hi.ne]) (fun i hi p hr => edge_roundState hr w b s hi) rfl

/-! ### A command settles in its big-step effect (R174, R178 to R182) -/

theorem commandEffect_of_err {s : State} (he : s.err = true) (i : Instr) : commandEffect i s = s := by
  simp [commandEffect, he]

theorem commandEdges_of_err {s : State} (he : s.err = true) (i : Instr) : commandEdges i s = 1 := by
  simp [commandEdges, he]

theorem commandEffect_ldkey {s : State} (he : s.err = false) (k : Key) :
    commandEffect (.ldkey k) s = loadKeyWhole k s := by simp [commandEffect, he]

theorem commandEdges_ldkey {s : State} (he : s.err = false) (k : Key) : commandEdges (.ldkey k) s = 17 := by
  simp [commandEdges, he, Config.tLdkey]

theorem commandEffect_blockCommand {s : State} (he : s.err = false) (w : Bool) (b : Block) :
    commandEffect (blockCommand w b) s = cryptWhole w b s := by cases w <;> simp [commandEffect, he]

theorem commandEdges_blockCommand {s : State} (he : s.err = false) (w : Bool) (b : Block) :
    commandEdges (blockCommand w b) s = if s.keyValid then 17 else 1 := by
  cases w <;> simp [commandEdges, he, Config.tCrypt]

/-- An accepted block command settles in its effect, after the rounds or at once with a fault. -/
theorem settlesIn_blockCommand {s : State} (h : cmdReady s = true) (w : Bool) (b : Block) :
    SettlesIn (commandEdges (blockCommand w b) s - 1) (acceptedState (blockCommand w b) s)
      (commandEffect (blockCommand w b) s) := by
  obtain ⟨hp, he⟩ := (cmdReady_iff s).mp h
  rw [commandEdges_blockCommand he, acceptedState_blockCommand, commandEffect_blockCommand he]
  cases hk : s.keyValid with
  | true =>
    rw [acceptBlock_valid hk]
    exact settlesIn_startCrypt hk w b
  | false =>
    have hfault : cryptWhole w b s = raiseFault .noKey s := by simp [cryptWhole, hk]
    rw [acceptBlock_invalid hk, hfault]
    exact .idle hp

/-- A command of one edge has settled when it is accepted. -/
theorem settlesIn_at_once {i : Instr} {s : State} (hn : commandEdges i s = 1)
    (ht : commandEffect i s = acceptedState i s) (hidle : (acceptedState i s).phase = .idle) :
    SettlesIn (commandEdges i s - 1) (acceptedState i s) (commandEffect i s) := by
  rw [hn, ht]
  exact .idle hidle

/-- Every accepted command settles in its big-step effect, in the edges that the reference timing gives it (R230). -/
theorem settlesIn_acceptedState {s : State} (h : cmdReady s = true) (i : Instr) :
    SettlesIn (commandEdges i s - 1) (acceptedState i s) (commandEffect i s) := by
  obtain ⟨hp, he⟩ := (cmdReady_iff s).mp h
  cases i with
  | nop => exact settlesIn_at_once (by simp [commandEdges]) (by simp [commandEffect, acceptedState, he]) hp
  | ldkey k =>
    rw [commandEdges_ldkey he, commandEffect_ldkey he]
    exact settlesIn_startKeygen k s
  | enc b => exact settlesIn_blockCommand h false b
  | dec b => exact settlesIn_blockCommand h true b
  | clr => exact settlesIn_at_once (by simp [commandEdges]) (by simp [commandEffect, acceptedState, he]) hp
  | rsvd5 => exact settlesIn_at_once (by simp [commandEdges]) (by simp [commandEffect, acceptedState, he]) hp
  | rsvd6 => exact settlesIn_at_once (by simp [commandEdges]) (by simp [commandEffect, acceptedState, he]) hp
  | rsvd7 => exact settlesIn_at_once (by simp [commandEdges]) (by simp [commandEffect, acceptedState, he]) hp

/-- A ready core accepts the command presented to it. -/
theorem edge_present_ready {s : State} (h : cmdReady s = true) (i : Instr) :
    edge (cmdPort (encode i)) s = .next (acceptedState i s) := by
  obtain ⟨hp, he⟩ := (cmdReady_iff s).mp h
  rw [edge_accepted (acceptedAt_iff.mpr ⟨rfl, rfl, hp, he⟩), cmdPort, decodeWord_encode]

/-- A command presented to an idle core settles in its effect; with a fault recorded there is none. -/
theorem edge_present {s : State} (hp : s.phase = .idle) (i : Instr) :
    ∃ t, edge (cmdPort (encode i)) s = .next t ∧ SettlesIn (commandEdges i s - 1) t (commandEffect i s) := by
  cases he : s.err with
  | true =>
    rw [commandEdges_of_err he, commandEffect_of_err he]
    exact ⟨s, edge_hold rfl hp (by simp [acceptedAt, cmdReady, he]), .idle hp⟩
  | false =>
    have hready := (cmdReady_iff s).mpr ⟨hp, he⟩
    exact ⟨acceptedState i s, edge_present_ready hready i, settlesIn_acceptedState hready i⟩

/-! ### Runs of edges without reset (R184) -/

/-- An edge that accepts nothing brings the core one edge nearer to where it is heading. -/
theorem SettlesIn.edge_rejects {n : Nat} {p : PortIn} {s u : State} (h : SettlesIn n s u) (hr : p.rst = false)
    (ha : acceptedAt p s = false) : ∃ t, edge p s = .next t ∧ SettlesIn (n - 1) t u := by
  cases h with
  | idle hp => exact ⟨s, edge_hold hr hp ha, .idle hp⟩
  | busy _ hedge ht => exact ⟨_, hedge p hr, ht⟩

/-- A core that is still busy accepts nothing. -/
theorem SettlesIn.acceptedBy_eq_nil {n : Nat} {s u : State} (h : SettlesIn n s u) {ps : List PortIn}
    (hlen : ps.length ≤ n) (hr : NoReset ps) : acceptedBy ps s = [] := by
  induction h generalizing ps with
  | idle => simp [List.eq_nil_of_length_eq_zero (Nat.le_zero.mp hlen), acceptedBy]
  | busy hp hedge _ ih =>
    cases ps with
    | nil => rfl
    | cons p ps =>
      obtain ⟨hp0, hrest⟩ := List.forall_mem_cons.mp hr
      rw [acceptedBy_reject (not_accepted_of_busy hp) (hedge p hp0)]
      exact ih (Nat.le_of_succ_le_succ hlen) hrest

/-- Edges enough, at which nothing is accepted, bring the core to where it is heading. -/
theorem SettlesIn.edges_eq {n : Nat} {ps : List PortIn} {s u : State} (h : SettlesIn n s u) (hr : NoReset ps)
    (hnil : acceptedBy ps s = []) (hlen : n ≤ ps.length) : edges ps s = .next u := by
  induction ps generalizing n s with
  | nil =>
    obtain rfl : n = 0 := Nat.le_zero.mp hlen
    rw [h.eq_of_zero]
    rfl
  | cons p ps ih =>
    obtain ⟨hp, hrest⟩ := List.forall_mem_cons.mp hr
    have ha : acceptedAt p s = false := by
      by_contra ha
      simp [acceptedBy, ha] at hnil
    obtain ⟨t, he, ht⟩ := h.edge_rejects hp ha
    rw [acceptedBy_reject ha he] at hnil
    rw [edges_cons he]
    exact ih ht hrest hnil (by simp only [List.length_cons] at hlen; omega)

/-- The commuting diagram of the two levels, by induction on the edges: whatever is presented, the core is at every edge
on its way to the composition of the effects of the commands accepted so far. -/
theorem SettlesIn.edges_effect {n : Nat} {ps : List PortIn} {s u : State} (h : SettlesIn n s u) (hr : NoReset ps) :
    ∃ m t, edges ps s = .next t ∧ SettlesIn m t (commandsEffect (acceptedBy ps s) u) := by
  induction ps generalizing n s u with
  | nil => exact ⟨n, s, rfl, h⟩
  | cons p ps ih =>
    obtain ⟨hp, hrest⟩ := List.forall_mem_cons.mp hr
    cases ha : acceptedAt p s with
    | true =>
      obtain ⟨-, -, hidle, he⟩ := acceptedAt_iff.mp ha
      obtain rfl := h.eq_of_idle hidle
      rw [acceptedBy_accept ha (edge_accepted ha), edges_cons (edge_accepted ha)]
      exact ih (settlesIn_acceptedState ((cmdReady_iff s).mpr ⟨hidle, he⟩) _) hrest
    | false =>
      obtain ⟨t, he, ht⟩ := h.edge_rejects hp ha
      rw [acceptedBy_reject ha he, edges_cons he]
      exact ih ht hrest

/-- The inputs still to come are the host's: no edge changes them. -/
theorem edge_pending {p : PortIn} {s t : State} (h : edge p s = .next t) : t.pending = s.pending := by
  cases edgeEffect_of_edge h with
  | keygen i => exact keygenAt_pending i s
  | round i => exact roundAt_pending i s
  | reset | hold | nop | ldkey | block | clr | fault => rfl

theorem edges_pending {ps : List PortIn} {s t : State} (h : edges ps s = .next t) : t.pending = s.pending := by
  induction ps generalizing s with
  | nil =>
    cases h
    rfl
  | cons p ps ih =>
    cases he : edge p s with
    | next u => rw [ih (edges_cons he ▸ h), edge_pending he]
    | fault r => simp [edges, he] at h
    | refused r => simp [edges, he] at h

/-- A reset edge ends whatever edges without reset began in an idle core, in the reset state (R220). -/
theorem edges_concat_reset {ps : List PortIn} {q : PortIn} {s : State} (hp : s.phase = .idle) (hr : NoReset ps)
    (hq : q.rst = true) : edges (ps ++ [q]) s = .next { State.reset with pending := s.pending } := by
  obtain ⟨-, t, ht, -⟩ := (SettlesIn.idle hp).edges_effect hr
  rw [edges_append ht, edges_cons (edge_reset hq), ← edges_pending ht]
  rfl

/-- A reset edge aborts a command (R174, R178, R179). -/
theorem command_aborted_by_reset {ps : List PortIn} {q : PortIn} {s : State} (h : cmdReady s = true) (i : Instr)
    (hr : NoReset ps) (hq : q.rst = true) :
    edges (cmdPort (encode i) :: (ps ++ [q])) s = .next { State.reset with pending := s.pending } :=
  edges_concat_reset (ps := cmdPort (encode i) :: ps) ((cmdReady_iff s).mp h).1 (List.forall_mem_cons.mpr ⟨rfl, hr⟩) hq

/-- A command with the edges that the reference timing gives it has its big-step effect, whatever is presented
meanwhile. -/
theorem command_runs_whole {ps : List PortIn} {s : State} (h : cmdReady s = true) (i : Instr)
    (hlen : ps.length + 1 = commandEdges i s) (hr : NoReset ps) :
    exec i s = .next (acceptedState i s) ∧ edges ps (acceptedState i s) = .next (commandEffect i s) ∧
      edges (cmdPort (encode i) :: ps) s = .next (commandEffect i s) := by
  have hsettles : SettlesIn ps.length (acceptedState i s) (commandEffect i s) := by
    rw [show ps.length = commandEdges i s - 1 by omega]
    exact settlesIn_acceptedState h i
  have hrest := hsettles.edges_eq hr (hsettles.acceptedBy_eq_nil le_rfl hr) le_rfl
  exact ⟨exec_ready h i, hrest, by rw [edges_cons (edge_present_ready h i), hrest]⟩

/-! ### `LDKEY`, `ENC` and `DEC` as a whole (R174, R178, R179) -/

/-- Settles O11: key generation runs through its sixteen steps to `loadKeyWhole`, and sixteen rotations bring the halves
of the key back. -/
theorem ldkeyBuildsTheWholeSchedule : Obligations.LdkeyBuildsTheWholeSchedule := by
  refine ⟨fun k s ps h hlen hr => ?_, fun k s ps q h _ hr hq => command_aborted_by_reset h (.ldkey k) hr hq⟩
  obtain ⟨-, he⟩ := (cmdReady_iff s).mp h
  have hruns := command_runs_whole h (.ldkey k) (by rw [commandEdges_ldkey he, hlen]) hr
  rw [commandEffect_ldkey he] at hruns
  obtain ⟨hexec, hrest, hall⟩ := hruns
  exact ⟨_, loadKeyWhole k s, hexec, hrest, hall, fun _ => rfl, (keyHalvesAfter_sixteen k).symm, rfl, rfl, he, rfl⟩

/-- A block command in either direction runs through its sixteen rounds to the transformed block. -/
theorem blockCommand_computes_crypt (w : Bool) (b : Block) (s : State) (ps : List PortIn) (h : cmdReady s = true)
    (hk : s.keyValid = true) (hlen : ps.length = 16) (hr : NoReset ps) :
    ∃ u t, exec (blockCommand w b) s = .next u ∧ edges ps u = .next t ∧
      edges (cmdPort (encode (blockCommand w b)) :: ps) s = .next t ∧
      t.dout = crypt b s.rk w ∧ (∀ k, s.rk = keySchedule k → t.dout = crypt b (keySchedule k) w) ∧
      (t.l, t.r) = halvesAfter b s.rk w 16 ∧
      t = { s with l := t.l, r := t.r, dout := t.dout, isDone := true, decr := w, phase := .idle, rnd := 0 } := by
  obtain ⟨-, he⟩ := (cmdReady_iff s).mp h
  have hruns := command_runs_whole h (blockCommand w b) (by rw [commandEdges_blockCommand he, hlen, if_pos hk]) hr
  rw [commandEffect_blockCommand he, ← roundState_sixteen hk] at hruns
  obtain ⟨hexec, hrest, hall⟩ := hruns
  exact ⟨_, roundState w b s 16, hexec, hrest, hall, rfl, fun _ hrk => by rw [← hrk]; rfl, rfl, rfl⟩

/-- Settles O15: `ENC` is the block command in the encrypting direction. -/
theorem encComputesTheBlockFunction : Obligations.EncComputesTheBlockFunction :=
  ⟨blockCommand_computes_crypt false, fun b _ _ _ h _ _ hr hq => command_aborted_by_reset h (.enc b) hr hq⟩

/-- Settles O16: `DEC` is the block command in the decrypting direction. -/
theorem decComputesTheBlockFunction : Obligations.DecComputesTheBlockFunction :=
  ⟨blockCommand_computes_crypt true, fun b _ _ _ h _ _ hr hq => command_aborted_by_reset h (.dec b) hr hq⟩

/-! ### Commands one after the other (R184) -/

/-- A command whose host leaves it its edges and has nothing else accepted ends in its effect, idle. -/
theorem edges_command_of_handshake {i : Instr} {ps : List PortIn} {s : State} (hp : s.phase = .idle)
    (hlen : commandEdges i s ≤ ps.length + 1) (hr : NoReset ps)
    (hacc : acceptedBy (cmdPort (encode i) :: ps) s = acceptedBy [cmdPort (encode i)] s) :
    edges (cmdPort (encode i) :: ps) s = .next (commandEffect i s) ∧ (commandEffect i s).phase = .idle := by
  obtain ⟨t, ht, hsettles⟩ := edge_present hp i
  have hnil : acceptedBy ps t = [] := by
    rw [← List.singleton_append, acceptedBy_append (edges_cons ht)] at hacc
    exact List.append_right_eq_self.mp hacc
  rw [edges_cons ht]
  exact ⟨hsettles.edges_eq hr hnil (by omega), hsettles.phase_idle⟩

/-- With a fault recorded no command of a list has an effect (R203). -/
theorem commandsEffect_of_err {s : State} (he : s.err = true) (is : List Instr) : commandsEffect is s = s := by
  induction is with
  | nil => rfl
  | cons i is ih => rw [commandsEffect, List.foldl_cons, commandEffect_of_err he, ← commandsEffect, ih]

/-- Settles O38: the first clause by induction on the program, a command at a time; the second is the commuting diagram
of the two levels, at a point where the core is idle. -/
theorem commandSequenceComposes : Obligations.CommandSequenceComposes := by
  refine ⟨fun prog s hp hhost => ?_, fun ps s t hp hr he hidle => ?_, fun is s he => commandsEffect_of_err he is⟩
  · induction prog generalizing s with
    | nil => rfl
    | cons c prog ih =>
      obtain ⟨hlen, hr, hacc, hrest⟩ := hhost
      obtain ⟨hfirst, hidle⟩ := edges_command_of_handshake hp hlen hr hacc
      rw [programInputs, List.flatMap_cons, edges_append hfirst]
      exact ih _ hidle hrest
  · obtain ⟨_, t', he', hsettles⟩ := (SettlesIn.idle hp).edges_effect hr
    obtain rfl : t = t' := by simpa [he] using he'
    exact hsettles.eq_of_idle hidle

end Sys2Proof.Proofs

/-! ## Proofs: the two faults, the halted core and its one exit (R201 to R204) -/

namespace Sys2Proof.Proofs

open Sys2Proof.Machine Sys2Proof.Safety Sys2Proof.Laws

/-! ### The two faults (R201) -/

/-- A core that accepts a command is ready. -/
theorem cmdReady_of_accepted {p : PortIn} {s : State} (ha : acceptedAt p s = true) : cmdReady s = true := by
  obtain ⟨-, -, hp, he⟩ := acceptedAt_iff.mp ha
  exact (cmdReady_iff s).mpr ⟨hp, he⟩

/-- The commands that fault: a block command without a schedule, and the reserved opcodes. -/
theorem raisesFault_iff {i : Instr} {s : State} : raisesFault i s = true ↔
    (s.keyValid = false ∧ ∃ b, i = .enc b ∨ i = .dec b) ∨ i = .rsvd5 ∨ i = .rsvd6 ∨ i = .rsvd7 := by
  cases i <;> simp [raisesFault]

/-- A faulting edge is an accepted command that faults. -/
theorem faultingAt_iff {p : PortIn} {s : State} :
    faultingAt p s = true ↔ acceptedAt p s = true ∧ raisesFault (decodeWord p.cmd) s = true := by
  simp [faultingAt]

/-- The reserved commands are those with opcode 5, 6 or 7. -/
theorem reserved_iff_opcode (i : Instr) :
    i = .rsvd5 ∨ i = .rsvd6 ∨ i = .rsvd7 ↔ i.opcode = 0b101 ∨ i.opcode = 0b110 ∨ i.opcode = 0b111 := by
  cases i <;> simp [Instr.opcode]

/-- A word decodes to a reserved command exactly when its opcode field is reserved (R71). -/
theorem decodeWord_reserved_iff (w : CmdWord) :
    decodeWord w = .rsvd5 ∨ decodeWord w = .rsvd6 ∨ decodeWord w = .rsvd7 ↔
      opField w = 0b101 ∨ opField w = 0b110 ∨ opField w = 0b111 := by
  rw [reserved_iff_opcode, opcode_decodeWord]

/-- A block command accepted without a schedule records `NO_KEY` (R182). -/
theorem edge_noKey {p : PortIn} {s : State} (ha : acceptedAt p s = true) (hk : s.keyValid = false)
    (hi : ∃ b, decodeWord p.cmd = .enc b ∨ decodeWord p.cmd = .dec b) :
    edge p s = .next (raiseFault .noKey s) := by
  obtain ⟨b, hb⟩ := hi
  rw [edge_accept ha]
  exact blockWithoutScheduleRaisesNoKey _ b s hb (cmdReady_of_accepted ha) hk

/-- A reserved command accepted records `RSVD_OP` (R181). -/
theorem edge_rsvdOp {p : PortIn} {s : State} (ha : acceptedAt p s = true)
    (hi : decodeWord p.cmd = .rsvd5 ∨ decodeWord p.cmd = .rsvd6 ∨ decodeWord p.cmd = .rsvd7) :
    edge p s = .next (raiseFault .rsvdOp s) := by
  rw [edge_accept ha]
  exact reservedOpcodesRaiseRsvdOp _ s hi (cmdReady_of_accepted ha)

/-- A faulting edge does one thing: it raises a fault, with a code. -/
theorem edge_faulting {p : PortIn} {s : State} (h : faultingAt p s = true) :
    ∃ code, code ≠ .none ∧ edge p s = .next (raiseFault code s) := by
  obtain ⟨ha, hf⟩ := faultingAt_iff.mp h
  obtain ⟨hk, hi⟩ | hi := raisesFault_iff.mp hf
  · exact ⟨.noKey, by decide, edge_noKey ha hk hi⟩
  · exact ⟨.rsvdOp, by decide, edge_rsvdOp ha hi⟩

/-- An edge that sets `ERR` is a faulting one. -/
theorem faultingAt_of_err_set {p : PortIn} {s t : State} (h : edge p s = .next t) (hs : s.err = false)
    (ht : t.err = true) : faultingAt p s = true := by
  obtain ⟨hreset, herr, -⟩ := errorFlagsRule.1 p s t h
  cases hr : p.rst with
  | true => simp [hreset hr] at ht
  | false => simpa [herr hr, hs] using ht

/-- The port shows the codes 0, 1 and 2 only (R36). -/
theorem ecodeBits_ne_three (c : ECode) : ecodeBits c ≠ 3 := by cases c <;> decide

/-- Settles O20: an edge that sets `ERR` accepted one of the commands that fault, and each of those is known to record its
code and nothing else. -/
theorem onlyTheTwoListedFaultsAreRaised : Obligations.OnlyTheTwoListedFaultsAreRaised := by
  refine ⟨fun p s t h hs ht => ?_, fun p s => edge_noKey,
    fun p s ha hop => edge_rsvdOp ha ((decodeWord_reserved_iff p.cmd).mpr hop), fun s => ecodeBits_ne_three s.ecode⟩
  obtain ⟨ha, hf⟩ := faultingAt_iff.mp (faultingAt_of_err_set h hs ht)
  refine ⟨ha, ?_⟩
  obtain ⟨hk, hi⟩ | hi := raisesFault_iff.mp hf
  · obtain rfl := Host.Outcome.next.inj (h.symm.trans (edge_noKey ha hk hi))
    exact .inl ⟨rfl, hk, hi⟩
  · obtain rfl := Host.Outcome.next.inj (h.symm.trans (edge_rsvdOp ha hi))
    exact .inr ⟨rfl, (decodeWord_reserved_iff p.cmd).mp hi⟩

/-! ### The halted core (R203, R204) -/

/-- With a fault recorded the core is not ready. -/
theorem cmdReady_of_err {s : State} (he : s.err = true) : cmdReady s = false := by
  simp [cmdReady, he]

/-- With a fault recorded no input is accepted, whatever it presents. -/
theorem not_accepted_of_err {s : State} (he : s.err = true) (p : PortIn) : acceptedAt p s = false := by
  simp [acceptedAt, cmdReady_of_err he]

/-- An edge without reset leaves the halted core as it is. -/
theorem edge_halted {p : PortIn} {s : State} (hp : s.phase = .idle) (he : s.err = true) (hr : p.rst = false) :
    edge p s = .next s := edge_hold hr hp (not_accepted_of_err he p)

/-- So does any number of edges without reset. -/
theorem edges_halted {ps : List PortIn} {s : State} (hp : s.phase = .idle) (he : s.err = true) (hr : NoReset ps) :
    edges ps s = .next s := by
  induction ps with
  | nil => rfl
  | cons p ps ih =>
    obtain ⟨hp0, hrest⟩ := List.forall_mem_cons.mp hr
    rw [edges_cons (edge_halted hp he hp0), ih hrest]

/-- Settles O21: the faulting edge is `raiseFault` in an idle core, and the state it leads to is halted. -/
theorem faultEntryHaltsUntilReset : Obligations.FaultEntryHaltsUntilReset := by
  intro p s h
  obtain ⟨ha, -⟩ := faultingAt_iff.mp h
  obtain ⟨-, -, hp, -⟩ := acceptedAt_iff.mp ha
  obtain ⟨code, hcode, hedge⟩ := edge_faulting h
  have he : (raiseFault code s).err = true := raiseFault_err code s
  exact ⟨raiseFault code s, hedge, he, rfl, hcode, cmdReady_of_err he, not_accepted_of_err he,
    fun _ => edges_halted hp he⟩

/-- Settles O22: the control invariant says that a core with a fault recorded is idle, so its edge is a reset or is
held. -/
theorem onlyResetLeavesTheFaultedState : Obligations.OnlyResetLeavesTheFaultedState := by
  intro p s t hc he h
  obtain ⟨-, -, -, herr, -⟩ := hc
  obtain ⟨hp, -⟩ := herr he
  cases hr : p.rst with
  | true =>
    rw [edge_reset hr] at h
    exact .inl ⟨rfl, (Host.Outcome.next.inj h).symm⟩
  | false =>
    rw [edge_halted hp he hr] at h
    obtain rfl := Host.Outcome.next.inj h
    exact .inr ⟨rfl, rfl, rfl⟩

end Sys2Proof.Proofs

/-! ## Proofs: reset, and how long a busy core stays busy (R220 to R222, R231) -/

namespace Sys2Proof.Proofs

open Sys2Proof.Machine Sys2Proof.Safety Sys2Proof.Laws

/-! ### Reset (R220 to R222) -/

/-- A state that a reset left is left by every further one as it is. -/
theorem resetRegs_resetRegs (s : State) : resetRegs (resetRegs s) = resetRegs s := rfl

/-- The reset state is a fixed point of reset. -/
theorem resetRegs_reset : resetRegs State.reset = State.reset := rfl

/-- Reset edges, however many, leave a state that a reset left. -/
theorem edges_of_resetRegs {ps : List PortIn} (hps : AllReset ps) (s : State) :
    edges ps (resetRegs s) = .next (resetRegs s) := by
  induction ps with
  | nil => rfl
  | cons p ps ih =>
    obtain ⟨hp, hrest⟩ := List.forall_mem_cons.mp hps
    rw [edges_cons (edge_reset hp), resetRegs_resetRegs, ih hrest]

/-- Settles O3: the first edge of reset leads to a state that the others keep. -/
theorem heldResetIsOneReset : Obligations.HeldResetIsOneReset := by
  refine ⟨fun p ps s hp hps => ?_, fun p hp => ?_⟩
  · rw [edges_cons (edge_reset hp), edge_reset hp, edges_of_resetRegs hps]
  · rw [edge_reset hp, resetRegs_reset]

/-- Settles O1: the edge is `resetRegs`, whose fields are known; without reset a recorded fault stays recorded. -/
theorem resetPutsEveryElementToZero : Obligations.ResetPutsEveryElementToZero := by
  refine ⟨fun p s hp => ⟨resetRegs s, edge_reset hp, ?_⟩, fun p s t he hr h => ?_⟩
  · simp
  · obtain ⟨-, herr, -⟩ := errorFlagsRule.1 p s t h
    rw [herr hr, he, Bool.true_or]

/-- Settles O2: the reset state is ready, and a ready core accepts the word presented. -/
theorem resetOutputsAreReadyAndZero : Obligations.ResetOutputsAreReadyAndZero := by
  refine ⟨by decide, fun w => ?_⟩
  have ha : acceptedAt (cmdPort w) State.reset = true := acceptedAt_iff.mpr ⟨rfl, rfl, rfl, rfl⟩
  exact ⟨ha, edge_accept ha⟩

/-! ### A busy core settles within sixteen edges (R231) -/

/-- The last round leaves the core idle, so a round that leaves it busy was not the last. -/
theorem not_last_of_busy_after {i : Fin 16} {ph : Phase} (h : (if isLastRound i then .idle else ph) ≠ Phase.idle) :
    isLastRound i = false := Bool.eq_false_iff.mpr fun hl => h (if_pos hl)

/-- An edge without reset that leaves a busy core busy advances `RND` by one (R31). -/
theorem rnd_advances_while_busy {p : PortIn} {s t : State} (hr : p.rst = false) (hs : s.phase ≠ .idle)
    (h : edge p s = .next t) (ht : t.phase ≠ .idle) : t.rnd.val = s.rnd.val + 1 := by
  obtain ⟨hr', -⟩ | ⟨-, -, i, hn, rfl⟩ | ⟨-, -, i, hn, rfl⟩ | ⟨-, hp, -⟩ | ⟨-, hp, -⟩ := edge_cases h
  · simp [hr] at hr'
  · rw [keygenAt_phase] at ht
    rw [keygenAt_rnd, nextRnd_val_of_not_last (not_last_of_busy_after ht), hn]
  · rw [roundAt_phase] at ht
    rw [roundAt_rnd, nextRnd_val_of_not_last (not_last_of_busy_after ht), hn]
  · exact absurd hp hs
  · exact absurd hp hs

/-- A core settles in at most as many edges as its `RND` is away from 17: by induction on that distance, each busy edge
taking one from it. -/
theorem exists_settlesIn_of_rnd (n : Nat) {s : State} (hc : ControlInv s)
    (hn : s.phase ≠ .idle → 17 ≤ s.rnd.val + n) : ∃ m ≤ n, ∃ u, SettlesIn m s u := by
  induction n generalizing s with
  | zero =>
    have hp : s.phase = .idle := by
      by_contra hp
      have := hn hp
      omega
    exact ⟨0, le_rfl, s, .idle hp⟩
  | succ n ih =>
    by_cases hp : s.phase = .idle
    · exact ⟨0, Nat.zero_le _, s, .idle hp⟩
    · obtain ⟨t, ht⟩ := exists_edge_of_controlInv (p := idlePort) hc
      have hnext : t.phase ≠ .idle → 17 ≤ t.rnd.val + n := fun hpt => by
        have hadv := rnd_advances_while_busy rfl hp ht hpt
        have := hn hp
        omega
      obtain ⟨m, hm, u, hu⟩ := ih (edge_keeps_controlInv hc ht) hnext
      have hedge (p : PortIn) (hr : p.rst = false) : edge p s = .next t := (edge_busy_congr hr hp).trans ht
      exact ⟨m + 1, Nat.succ_le_succ hm, u, .busy hp hedge hu⟩

/-- A core that meets the control invariant settles within sixteen edges, because a busy one has `RND` at least 1. -/
theorem exists_settlesIn_of_controlInv {s : State} (hc : ControlInv s) : ∃ m ≤ 16, ∃ u, SettlesIn m s u := by
  have ⟨hidle, _⟩ := hc
  refine exists_settlesIn_of_rnd 16 hc fun hp => ?_
  have hrnd : s.rnd.val ≠ 0 := fun e => hp (hidle.mpr (Fin.ext e))
  omega

/-- A core on its way to an idle state records no fault and clears none. -/
theorem SettlesIn.err_eq {n : Nat} {s u : State} (h : SettlesIn n s u) : u.err = s.err := by
  induction h with
  | idle => rfl
  | busy hp hedge _ ih =>
    obtain ⟨-, -, hkeeps⟩ := commandPortActsOnlyWhenAccepted
    have hready : cmdReady _ = false := Bool.eq_false_iff.mpr fun hr => hp ((cmdReady_iff _).mp hr).1
    rw [ih, (hkeeps idlePort _ _ rfl hready (hedge idlePort rfl)).1]

/-- Settles O36: the core settles within sixteen edges and keeps `ERR`; with a fault recorded it is halted. -/
theorem busyCoreIsReadyWithinSixteenEdges : Obligations.BusyCoreIsReadyWithinSixteenEdges := by
  refine ⟨fun s ps hc he hlen hr => ?_, fun s ps hc he hr => ?_⟩
  · obtain ⟨m, hm, u, hu⟩ := exists_settlesIn_of_controlInv hc
    have hr' : NoReset (ps.take m) := fun p hp => hr p (List.mem_of_mem_take hp)
    have hlen' : (ps.take m).length = m := by rw [List.length_take, hlen, min_eq_left hm]
    have hedges := hu.edges_eq hr' (hu.acceptedBy_eq_nil hlen'.le hr') hlen'.ge
    exact ⟨m, hm, u, hedges, hu.phase_idle, (cmdReady_iff u).mpr ⟨hu.phase_idle, hu.err_eq.trans he⟩⟩
  · obtain ⟨-, -, -, herr, -⟩ := hc
    exact edges_halted (herr he).1 he hr

end Sys2Proof.Proofs

/-! ## Proofs: what each step keeps, each command as a whole, and the output ports (R35, R38 to R43, R184, R185) -/

namespace Sys2Proof.Proofs

open Sys2Proof.Machine Sys2Proof.Safety Sys2Proof.Laws

/-! ### A step is the edge with the inputs that come next (R170) -/

theorem step_of_pending_cons {s : State} {p : PortIn} {rest : List PortIn} (h : s.pending = p :: rest) :
    step s = edge p { s with pending := rest } := by
  simp [step, portNow, dropPort, h]

/-- With no input listed the edge is idle. -/
theorem step_of_pending_nil {s : State} (h : s.pending = []) : step s = edge idlePort s := by
  have hdrop : dropPort s = s := by apply state_ext <;> simp [h]
  rw [step_eq_edge, hdrop]
  simp [portNow, h]

/-- The inputs still to come have no part in what an edge adds to the host's history. -/
theorem historyNext_dropPort (p : PortIn) (s : State) (g : History) :
    historyNext p (dropPort s) g = historyNext p s g := rfl

/-- Settles O33: the step is an edge, and the control invariant does not speak of the inputs to come. -/
theorem everyStepKeepsControlInv : Obligations.EveryStepKeepsControlInv := by
  intro s h
  have hdrop : ControlInv (dropPort s) := h
  obtain ⟨t, ht⟩ := exists_edge_of_controlInv (p := portNow s) hdrop
  exact ⟨t, ht, edge_keeps_controlInv hdrop ht⟩

/-- Settles O34: the step is an edge, and the invariants do not speak of the inputs to come. -/
theorem everyStepKeepsHistoryInv : Obligations.EveryStepKeepsHistoryInv := by
  intro g s t h ht
  have hdrop : HistoryInv g (dropPort s) := h
  rw [← historyNext_dropPort]
  exact edge_keeps_historyInv hdrop ht

/-- A table word that decodes is the command word on the port. -/
theorem decodeWord_of_decodeTableWord {nbits w : Nat} {i : Instr} (h : decodeTableWord nbits w = some i) :
    decodeWord (BitVec.ofNat 67 (w % 2 ^ nbits)) = i := by
  unfold decodeTableWord decodeRaw at h
  split_ifs at h with hfits
  · exact Option.some.inj h

/-- Settles O5: a step is an edge, and an accepting edge runs the command; `withFetchWord` makes the core ready for the
word it presents. -/
theorem stepRunsThePresentedCommand : Obligations.StepRunsThePresentedCommand := by
  refine ⟨fun s p rest i hs ha hi _ => ?_, fun s p rest => step_of_pending_cons, fun s => step_of_pending_nil,
    fun s nbits w i h => ?_⟩
  · rw [step_of_pending_cons hs, edge_accept (s := { s with pending := rest }) ha, hi]
  · rw [State.withFetchWord, step_of_pending_cons (presentNext_pending _ s),
      edge_accept (acceptedAt_iff.mpr ⟨rfl, rfl, rfl, rfl⟩), cmdPort, decodeWord_of_decodeTableWord h]
    rfl

/-! ### Every command as a whole (R184, R230) -/

/-- `BUSY` as R32 words it. -/
theorem isBusy_iff (s : State) : isBusy s = true ↔ s.phase ≠ .idle := by simp [isBusy]

/-- Fewer edges than a command has left find the core busy. -/
theorem SettlesIn.edges_busy {n : Nat} {s u : State} (h : SettlesIn n s u) {ps : List PortIn} (hr : NoReset ps)
    (hlen : ps.length < n) : ∃ t, edges ps s = .next t ∧ isBusy t = true := by
  induction h generalizing ps with
  | idle => exact absurd hlen (Nat.not_lt_zero _)
  | @busy n s t u hp hedge _ ih =>
    cases ps with
    | nil => exact ⟨s, rfl, (isBusy_iff s).mpr hp⟩
    | cons p ps =>
      obtain ⟨hp0, hrest⟩ := List.forall_mem_cons.mp hr
      rw [edges_cons (hedge p hp0)]
      exact ih hrest (Nat.lt_of_succ_lt_succ hlen)

/-- Settles O37: the accepting edge leads to a core that is busy for the further edges and then idle in the effect. -/
theorem everyCommandRunsItsWholeEffect : Obligations.EveryCommandRunsItsWholeEffect := by
  intro i s ps hp hlen hr
  obtain ⟨t, ht, hsettles⟩ := edge_present hp i
  rw [← hlen, Nat.add_sub_cancel] at hsettles
  refine ⟨?_, hsettles.phase_idle, fun n hn => ?_⟩
  · rw [edges_cons ht]
    exact hsettles.edges_eq hr (hsettles.acceptedBy_eq_nil le_rfl hr) le_rfl
  · rw [edges_cons ht]
    exact hsettles.edges_busy (fun p hp => hr p (List.mem_of_mem_take hp))
      (by rwa [List.length_take, min_eq_left hn.le])

/-! ### The round trip of a block through the core (R77, R185) -/

/-- A transformed block leaves the core ready, with the schedule it was transformed with. -/
theorem cryptWhole_ready {w : Bool} {b : Block} {s : State} (he : s.err = false) (hk : s.keyValid = true) :
    cmdReady (cryptWhole w b s) = true ∧ (cryptWhole w b s).keyValid = true ∧ (cryptWhole w b s).rk = s.rk := by
  simp [cryptWhole, hk, cmdReady, he]

/-- `ENC b ; READ` or `DEC b ; READ`, from a core that comes ready with a schedule, yields the transformed block. -/
theorem runScript_block_read {s t : State} (hwait : ComesReady cmdReady s t) (hk : t.keyValid = true) (w : Bool)
    (b : Block) :
    runScript [.command (blockCommand w b), .read] s = .finished (cryptWhole w b t) [crypt b t.rk w] := by
  have hcommand : runStmt (.command (blockCommand w b)) s = .finished (startCrypt w b t) [] := by
    rw [runStmt_command hwait, acceptedState_blockCommand, acceptBlock_valid hk]
  rw [runScript_cons hcommand, runScript_singleton (runStmt_read (comesReady_startCrypt hk)), cryptWhole_dout hk]
  rfl

/-- Settles O39: the two scripts run the block function in the two directions on one schedule. -/
theorem decryptAfterEncryptReturnsTheBlock : Obligations.DecryptAfterEncryptReturnsTheBlock := by
  intro k b s hready
  obtain ⟨-, he⟩ := (cmdReady_iff s).mp hready
  have hload : runStmt (.command (.ldkey k)) s = .finished (startKeygen k s) [] := runStmt_command (.refl hready) _
  have hk : (loadKeyWhole k s).keyValid = true := rfl
  have henc := runScript_block_read (comesReady_startKeygen (k := k) he) hk false b
  rw [loadKeyWhole_rk] at henc
  obtain ⟨hready', hk', hrk'⟩ := cryptWhole_ready (w := false) (b := b) (s := loadKeyWhole k s) he hk
  have hdec := runScript_block_read (.refl hready') hk' true (crypt b (keySchedule k) false)
  have hback : crypt (crypt b (keySchedule k) false) (keySchedule k) true = b := crypt_crypt_not b _ false
  rw [hrk', loadKeyWhole_rk, hback] at hdec
  refine ⟨cryptWhole false b (loadKeyWhole k s), _, crypt b (keySchedule k) false, ?_, ?_, hdec, ?_⟩
  · rw [runScript_cons hload]
    exact congrArg (ScriptRun.after []) henc
  · rw [cryptWhole_dout hk, loadKeyWhole_rk]
  · rw [cryptWhole_dout hk', hrk', loadKeyWhole_rk, hback]

/-! ### `DECR` after an edge (R35) -/

/-- Settles O28: one line of the rule for each effect of an edge; acceptance writes the direction into `DECR` alone. -/
theorem directionRule : Obligations.DirectionRule := by
  refine ⟨fun p s t h => ?_, fun b s t hready hk h => ?_⟩
  · cases edgeEffect_of_edge h with
    | reset hr => simp [hr]
    | keygen i hr hp =>
      have ha : acceptedAt p s = false := not_accepted_of_busy (by simp [hp])
      simp [hr, ha]
    | round i hr hp =>
      have ha : acceptedAt p s = false := not_accepted_of_busy (by simp [hp])
      simp [hr, ha]
    | hold hr hp ha => simp [hr, ha]
    | nop ha hi => simp [hi, acceptedAt_iff.mp ha]
    | ldkey k ha hi => simp [hi, acceptedAt_iff.mp ha]
    | block w b ha hi hk => cases w <;> simp [ha, hi, hk, acceptedAt_iff.mp ha]
    | clr ha hi => simp [ha, hi, acceptedAt_iff.mp ha]
    | fault code ha hf =>
      obtain ⟨-, hclr, hblock⟩ := raisesFault_excludes hf
      cases hk : s.keyValid with
      | false => simp [hclr, acceptedAt_iff.mp ha]
      | true => simp [hclr, hblock hk, acceptedAt_iff.mp ha]
  · have henc := exec_blockCommand_valid hready hk false b
    obtain rfl := Host.Outcome.next.inj (h.symm.trans henc)
    exact exec_blockCommand_valid hready hk true b

/-! ### The result on the output ports (R23, R226) -/

/-- A block that runs goes on through any edges without reset, up to its last round. -/
theorem edges_roundState {ps : List PortIn} (hr : NoReset ps) (w : Bool) (b : Block) (s : State) {n : Nat}
    (hn : n + ps.length ≤ 16) : edges ps (roundState w b s n) = .next (roundState w b s (n + ps.length)) := by
  induction ps generalizing n with
  | nil => rfl
  | cons p ps ih =>
    obtain ⟨hp, hrest⟩ := List.forall_mem_cons.mp hr
    rw [List.length_cons] at hn ⊢
    rw [edges_cons (edge_roundState hp w b s (by omega)), ih hrest (by omega), Nat.add_right_comm, Nat.add_assoc]

/-- While a block runs, there is no result and the port shows the one before (R226). -/
theorem output_hidden_while_block_runs {ps : List PortIn} {s : State} (w : Bool) (b : Block)
    (hready : cmdReady s = true) (hk : s.keyValid = true) (hr : NoReset ps) (hlen : ps.length ≤ 15) :
    ∃ t, edges (cmdPort (encode (blockCommand w b)) :: ps) s = .next t ∧ (outputs t).outValid = false ∧
      (outputs t).dout = s.dout := by
  have hstart : edge (cmdPort (encode (blockCommand w b))) s = .next (roundState w b s 0) := by
    rw [edge_present_ready hready, acceptedState_blockCommand, acceptBlock_valid hk, roundState_zero]
  have hne : 0 + ps.length ≠ 16 := by omega
  exact ⟨_, (edges_cons hstart).trans (edges_roundState hr w b s (by omega)), decide_eq_false hne, if_neg hne⟩

/-- Settles O31: the first clause by following the rounds; for the second, of the effects of an edge only reset, `CLR`
and a block accepted as work touch a result, because under the control invariant no block is running beside one. -/
theorem outputStaysUntilTheNextBlock : Obligations.OutputStaysUntilTheNextBlock := by
  refine ⟨?_, fun p s t hc hd h => ?_⟩
  · rintro i b s ps (rfl | rfl) hready hk hr hlen
    · exact output_hidden_while_block_runs false b hready hk hr hlen
    · exact output_hidden_while_block_runs true b hready hk hr hlen
  · cases edgeEffect_of_edge h with
    | reset hr => exact .inr (.inl hr)
    | block w b ha hi hk => exact .inr (.inr (.inl ⟨ha, hk, b, hi ▸ blockCommand_enc_or_dec w b⟩))
    | clr ha hi => exact .inr (.inr (.inr ⟨ha, hi⟩))
    | round i hr hp =>
      obtain ⟨-, -, hcrypt, -⟩ := hc
      obtain ⟨-, hnot⟩ := hcrypt hp
      simp [hnot] at hd
    | keygen i => exact .inl ⟨(keygenAt_isDone i s).trans hd, keygenAt_dout i s⟩
    | hold | nop | ldkey | fault => exact .inl ⟨hd, rfl⟩

/-! ### `status` and the other output ports (R38, R39) -/

/-- The register of R38, from the values of its fields. -/
def statusBits (decr : Bool) (code : BitVec 2) (err isDone keyValid busy : Bool) : BitVec 8 :=
  0#1 ++ BitVec.ofBool decr ++ code ++ BitVec.ofBool err ++ BitVec.ofBool isDone ++ BitVec.ofBool keyValid ++
    BitVec.ofBool busy

theorem statusOf_eq_statusBits (s : State) :
    statusOf s = statusBits s.decr (ecodeBits s.ecode) s.err s.isDone s.keyValid (isBusy s) := rfl

/-- The fields of the register do not overlap: each is read back from its own bits, whatever the others hold. -/
theorem statusBits_fields : ∀ (decr : Bool) (code : BitVec 2) (err isDone keyValid busy : Bool),
    (statusBits decr code err isDone keyValid busy).getLsbD 0 = busy ∧
    (statusBits decr code err isDone keyValid busy).getLsbD 1 = keyValid ∧
    (statusBits decr code err isDone keyValid busy).getLsbD 2 = isDone ∧
    (statusBits decr code err isDone keyValid busy).getLsbD 3 = err ∧
    (statusBits decr code err isDone keyValid busy).extractLsb' 4 2 = code ∧
    (statusBits decr code err isDone keyValid busy).getLsbD 6 = decr ∧
    (statusBits decr code err isDone keyValid busy).getLsbD 7 = false := by decide

/-- `cmd_ready` as R39 words it. -/
theorem cmdReady_eq_decide (s : State) : cmdReady s = decide (s.phase = .idle ∧ s.err = false) := by
  rw [Bool.eq_iff_iff, decide_eq_true_iff, cmdReady_iff]

/-- Settles O23: the fields of `status` are read back from their bits, and the other ports are the fields themselves. -/
theorem statusRegisterLayout : Obligations.StatusRegisterLayout := by
  intro s
  obtain ⟨h0, h1, h2, h3, h4, h6, h7⟩ :=
    statusBits_fields s.decr (ecodeBits s.ecode) s.err s.isDone s.keyValid (isBusy s)
  rw [← cmdReady_eq_decide, statusOf_eq_statusBits]
  exact ⟨h0, h1, h2, h3, h4, h6, h7, isBusy_iff s, rfl⟩

/-! ### Reset, the words of the spec, and an unready core (R40, R43, R71, R202) -/

/-- Settles O32: in the reset state the core is idle and every flag is 0. -/
theorem controlInvAtReset : Obligations.ControlInvAtReset := (historyInv_reset .empty).1

/-- Settles O59: acceptance is where `cmd_ready` is asked for, and an idle core that accepts nothing holds its state. -/
theorem unreadyCoreExecutesNothing : Obligations.UnreadyCoreExecutesNothing := by
  have hexec (i : Instr) (s : State) (h : cmdReady s = false) : exec i s = .next s := by
    rw [exec_eq_accept, accept_not_ready h]
  refine ⟨hexec, fun p s hr h hp => ?_⟩
  rw [hexec _ s h, edge_hold hr hp (by simp [acceptedAt, h])]

/-- Settles O44: each word has at most 67 bits, and its opcode field is that of the command; the last has 68. -/
theorem specWordsDecode : Obligations.SpecWordsDecode := by
  refine ⟨?_, ?_, ?_, ?_, ?_, ?_, ?_, ?_, ?_⟩ <;> decide

end Sys2Proof.Proofs
